-- ==== Sys2Proof/Word.lean ====
section
/-! DEFINITION. The word types of the frame codec block: spec/00_scope.md rules R10 and R16.
Plain shapes only; the arithmetic over them stands in Sys2Proof/Machine/. -/

namespace Sys2Proof

/-- Every byte is 8 bits (R10). -/
abbrev Byte := BitVec 8

/-- A 16-bit value: the length field, cluster and profile ids, sample words (R10). -/
abbrev Half := BitVec 16

/-- Two address bytes in wire order (R10, R87): an address is a byte string, not a number. -/
structure Addr16 where
  b0 : Byte
  b1 : Byte
deriving DecidableEq, Repr, Inhabited

/-- Eight address bytes in wire order (R10, R87). -/
structure Addr64 where
  b0 : Byte
  b1 : Byte
  b2 : Byte
  b3 : Byte
  b4 : Byte
  b5 : Byte
  b6 : Byte
  b7 : Byte
deriving DecidableEq, Repr, Inhabited

/-- Two bytes read as ASCII text, the kind `ascii[2]` of R16: an AT mnemonic (R127). -/
structure Ascii2 where
  c0 : Byte
  c1 : Byte
deriving DecidableEq, Repr, Inhabited

end Sys2Proof
end

