-- ==== Sys2Proof/Syntax.lean ====
section
/-! DEFINITION. The syntax of the block: messages (spec/00_scope.md R16), host commands
(spec/30_encoding.md R128), and `Instr`, one constructor per row of spec/opcode_table.json. -/

namespace Sys2Proof

/-- The frame types: those of the default type-tag map (R124), by name, whose tags are a parameter
(Sys2Proof/Config.lean); and any other entry of the registries, which are sets of tags (R9), by its tag. -/
inductive FrameType where
  | txRequest64
  | txRequest16
  | atCommand
  | atCommandQueueParameterValue
  | zigbeeTransmitRequest
  | explicitAddressingZigbeeCommandFrame
  | remoteAtCommandRequest
  | createSourceRoute
  | rxPacket64
  | rxPacket16
  | rxPacket64Io
  | rxPacket16Io
  | atCommandResponse
  | txStatus
  | modemStatus
  | zigbeeTransmitStatus
  | zigbeeReceivePacket
  | zigbeeExplicitRx
  | zigbeeIoDataSampleRx
  | xbeeSensorRead
  | nodeIdentification
  | remoteCommandResponse
  | routeRecord
  /-- A type that R124 does not name. -/
  | unnamed (tag : Byte)
deriving DecidableEq, Repr

/-- Channel names of the I/O sample parsers: `DIO<n>`, `AD<n>` and `SUPPLY` (R262), `ADC<n>` and
`DIO<n>` of the legacy parser (R281); `other` for the other names of a DIGITAL_NAMES or ANALOG_NAMES
argument (R9). -/
inductive Channel where
  | dio (n : Nat)
  | ad (n : Nat)
  | adc (n : Nat)
  | supply
  | other (name : String)
deriving DecidableEq, Repr

/-- The names of a message's fields: the names a MissingField event can carry (R193), whatever serializers
`ENC_REG` holds (R9). -/
inductive FieldName where
  | id
  | command
  | commandParameter
  | commandStatus
  | commandData
  | nodeIdentification
  | destination64
  | destination16
  | remoteCommandOptions
  | broadcastRadius
  | options
  | sourceEndpoint
  | destinationEndpoint
  | clusterId
  | profileId
  | data
  | addresses
  | remote64
  | remote16
  | sender64
  | sender16
  | receiveOptions
  | rssi
  | modemStatus
  | transmitRetryCount
  | deliveryStatus
  | discoveryStatus
  | numSamples
  | digitalSamples
  | analogSamples
  | sampleQuantity
  | channelMask
  | channels
  | nodeIdentifier
  | remoteParent16
  | deviceType
  | sourceEvent
  | digiProfileID
  | digiManufacturerID
  | sensors
  | AD
  | T
  | temperature16
  | relativeHumidity
  | trueHumidity
  | hopCount
  /-- A field that no table of the spec names. -/
  | other (name : String)
deriving DecidableEq, Repr

/-- A cluster or profile id, given as a 16-bit number or as its two bytes in wire order (R85, R192):
parser 0x91 surfaces bytes (R258), parser and serializer 0x11 numbers (R205, R286). -/
inductive Id16 where
  | number (v : Half)
  | raw (a : Addr16)
deriving DecidableEq, Repr

/-- A `map` field: channel name to natural, each name once, in the order in which the parser first assigns
them (R16; log 19). -/
abbrev ChannelMap := List (Channel × Nat)

/-- `digitalSamples`: a map of named bits (R261), or the raw words of the legacy parser (R281). -/
inductive DigitalSamples where
  | named (m : ChannelMap)
  | words (ws : List Half)
deriving DecidableEq, Repr

/-- `analogSamples`: one map (R263), or one map per sample in the legacy parser (R281). -/
inductive AnalogSamples where
  | named (m : ChannelMap)
  | perSample (ms : List ChannelMap)
deriving DecidableEq, Repr

/-- The value of a field that no table of the spec names, by the kinds of R16: a number, a signed integer,
bytes or text, a map, a list. -/
inductive FieldValue where
  | nat (v : Nat)
  | int (v : Int)
  | bytes (v : List Byte)
  | map (v : ChannelMap)
  | list (v : List Nat)
deriving DecidableEq, Repr

/-- The five extension fields of a node-identification payload (R267, R268). -/
structure NodeExtension where
  remoteParent16 : Addr16
  deviceType : Byte
  sourceEvent : Byte
  digiProfileID : Addr16
  digiManufacturerID : Addr16
deriving DecidableEq, Repr

/-- A node-identification payload (R267); `none` extension fields are absent, not zero (R268). -/
structure NodeId where
  remote16 : Addr16
  remote64 : Addr64
  nodeIdentifier : List Byte
  extension : Option NodeExtension
deriving DecidableEq, Repr

/-- A message (R16): its type tag and its fields. `none` is "absent", which is distinct from any
value. The field names are the spec's. -/
structure Message where
  type : Byte
  id : Option Byte := none
  command : Option Ascii2 := none
  commandParameter : Option (List Byte) := none
  commandStatus : Option Byte := none
  commandData : Option (List Byte) := none
  nodeIdentification : Option NodeId := none
  destination64 : Option Addr64 := none
  destination16 : Option Addr16 := none
  remoteCommandOptions : Option Byte := none
  broadcastRadius : Option Byte := none
  options : Option Byte := none
  sourceEndpoint : Option Byte := none
  destinationEndpoint : Option Byte := none
  clusterId : Option Id16 := none
  profileId : Option Id16 := none
  data : Option (List Byte) := none
  addresses : Option (List Half) := none
  remote64 : Option Addr64 := none
  remote16 : Option Addr16 := none
  sender64 : Option Addr64 := none
  sender16 : Option Addr16 := none
  receiveOptions : Option Byte := none
  rssi : Option Byte := none
  modemStatus : Option Byte := none
  transmitRetryCount : Option Byte := none
  deliveryStatus : Option Byte := none
  discoveryStatus : Option Byte := none
  numSamples : Option Byte := none
  digitalSamples : Option DigitalSamples := none
  analogSamples : Option AnalogSamples := none
  sampleQuantity : Option Byte := none
  channelMask : Option Half := none
  channels : Option (List Channel) := none
  nodeIdentifier : Option (List Byte) := none
  remoteParent16 : Option Addr16 := none
  deviceType : Option Byte := none
  sourceEvent : Option Byte := none
  digiProfileID : Option Addr16 := none
  digiManufacturerID : Option Addr16 := none
  sensors : Option Byte := none
  /-- The four analog channels in millivolts, AD[0] to AD[3] (R269, R270). -/
  AD : Option (List Nat) := none
  /-- The raw temperature word (R269). -/
  T : Option Half := none
  /-- Temperature in sixteenths of a degree, signed (R271). -/
  temperature16 : Option Int := none
  /-- Relative humidity in hundredths of a percent (R273, R274). -/
  relativeHumidity : Option Int := none
  /-- True humidity in hundredths of a percent (R275, R274). -/
  trueHumidity : Option Int := none
  hopCount : Option Byte := none
  /-- The fields that no table of the spec names, for the layouts of other registries (R9). DESIGN CHOICE
  (log 26), safe. -/
  others : List (String × FieldValue) := []
deriving DecidableEq, Repr

/-- The operand of RESET (R354): six numbers as the host gives them, legal or not (R11). -/
structure ConfigRecord where
  apiMode : Nat := 0
  rawFrames : Nat := 0
  convertAdc : Nat := 0
  vrefAdc : Nat := 0
  rxCap : Nat := 0
  txCap : Nat := 0
deriving DecidableEq, Repr

/-- One transaction of the command port (R350): a code and one lane for each kind of operand of R128.
A command reads its own lane only. -/
structure Command where
  code : Byte
  chunk : List Byte := []
  message : Message := { type := 0 }
  config : ConfigRecord := {}
deriving DecidableEq, Repr

/-- The cursor of R232: the position, and the bytes from it to the end of the payload. -/
structure Cursor where
  pos : Nat
  rest : List Byte
deriving DecidableEq, Repr

/-- An AT response parsed up to its branch: which of the two branches runs, local or remote (R252, R254), and
the message so far. -/
structure AtHead where
  remote : Bool
  message : Message
deriving DecidableEq, Repr

/-- The five formats of spec/opcode_table.json. -/
inductive Format where
  | hostCommand
  | rxByte
  | frameTagEncode
  | frameTagDecode
  | atMnemonic
deriving DecidableEq, Repr

/-- One constructor per row of spec/opcode_table.json, in the table's order. -/
inductive Instr where
  /-- FEED, code 0x01 (R352). -/
  | feed (chunk : List Byte)
  /-- ENCODE, code 0x02 (R355). A serializer that `ENC_REG` holds and the table has no row for is ENCODE's
  own (log 26). -/
  | encode (m : Message)
  /-- NEXT_FRAME_ID, code 0x03 (R356). -/
  | nextFrameId
  /-- RESET, code 0x04 (R354). -/
  | reset (cfg : ConfigRecord)
  /-- ILLEGAL_COMMAND, any other code (R351). -/
  | illegalCommand (code : Byte)
  /-- RX_START: a received 0x7E that begins a candidate frame (R303). -/
  | rxStart
  /-- RX_ESC: a received 0x7D in API mode 2 (R304). -/
  | rxEsc
  /-- RX_DATA: every other received byte (R302, R305 to R316). -/
  | rxData (b : Byte)
  /-- ENC_AT_COMMAND (R201). The operands of every ENC row are the message to serialize (R181): the fields
  the row's default layout writes before its last, in the layout's order, and `rest`, the message without
  those: its type, the last field and every field that another layout of ENC_REG could write. -/
  | encAtCommand (id : Option Byte) (command : Option Ascii2) (rest : Message)
  /-- ENC_AT_COMMAND_QUEUE_PARAMETER_VALUE (R202). -/
  | encAtCommandQueueParameterValue (id : Option Byte) (command : Option Ascii2) (rest : Message)
  /-- ENC_REMOTE_AT_COMMAND_REQUEST (R203). -/
  | encRemoteAtCommandRequest (id : Option Byte) (destination64 : Option Addr64)
    (destination16 : Option Addr16) (remoteCommandOptions : Option Byte) (command : Option Ascii2)
    (rest : Message)
  /-- ENC_ZIGBEE_TRANSMIT_REQUEST (R204). -/
  | encZigbeeTransmitRequest (id : Option Byte) (destination64 : Option Addr64)
    (destination16 : Option Addr16) (broadcastRadius options : Option Byte) (rest : Message)
  /-- ENC_EXPLICIT_ADDRESSING_ZIGBEE_COMMAND_FRAME (R205). -/
  | encExplicitAddressingZigbeeCommandFrame (id : Option Byte) (destination64 : Option Addr64)
    (destination16 : Option Addr16) (sourceEndpoint destinationEndpoint : Option Byte)
    (clusterId profileId : Option Id16) (broadcastRadius options : Option Byte) (rest : Message)
  /-- ENC_TX_REQUEST_64 (R206). -/
  | encTxRequest64 (id : Option Byte) (destination64 : Option Addr64) (options : Option Byte)
    (rest : Message)
  /-- ENC_TX_REQUEST_16 (R207). -/
  | encTxRequest16 (id : Option Byte) (destination16 : Option Addr16) (options : Option Byte)
    (rest : Message)
  /-- ENC_CREATE_SOURCE_ROUTE (R208). -/
  | encCreateSourceRoute (id : Option Byte) (destination64 : Option Addr64) (destination16 : Option Addr16)
    (rest : Message)
  /-- DEC_AT_COMMAND_RESPONSE (R251); `p` is the payload after type of every DEC row (R230). -/
  | decAtCommandResponse (p : List Byte)
  /-- DEC_REMOTE_COMMAND_RESPONSE (R253). -/
  | decRemoteCommandResponse (p : List Byte)
  /-- DEC_MODEM_STATUS (R255). -/
  | decModemStatus (p : List Byte)
  /-- DEC_ZIGBEE_TRANSMIT_STATUS (R256). -/
  | decZigbeeTransmitStatus (p : List Byte)
  /-- DEC_ZIGBEE_RECEIVE_PACKET (R257). -/
  | decZigbeeReceivePacket (p : List Byte)
  /-- DEC_ZIGBEE_EXPLICIT_RX (R258). -/
  | decZigbeeExplicitRx (p : List Byte)
  /-- DEC_ZIGBEE_IO_DATA_SAMPLE_RX (R259). -/
  | decZigbeeIoDataSampleRx (p : List Byte)
  /-- DEC_XBEE_SENSOR_READ (R269). -/
  | decXbeeSensorRead (p : List Byte)
  /-- DEC_NODE_IDENTIFICATION (R266). -/
  | decNodeIdentification (p : List Byte)
  /-- DEC_ROUTE_RECORD (R276). -/
  | decRouteRecord (p : List Byte)
  /-- DEC_RX_PACKET_64 (R277). -/
  | decRxPacket64 (p : List Byte)
  /-- DEC_RX_PACKET_16 (R278). -/
  | decRxPacket16 (p : List Byte)
  /-- DEC_RX_PACKET_64_IO (R279). -/
  | decRxPacket64Io (p : List Byte)
  /-- DEC_RX_PACKET_16_IO (R280). -/
  | decRxPacket16Io (p : List Byte)
  /-- DEC_TX_STATUS (R282). -/
  | decTxStatus (p : List Byte)
  /-- DEC_AT_COMMAND (R283). -/
  | decAtCommand (p : List Byte)
  /-- DEC_AT_COMMAND_QUEUE_PARAMETER_VALUE (R283). -/
  | decAtCommandQueueParameterValue (p : List Byte)
  /-- DEC_REMOTE_AT_COMMAND_REQUEST (R284). -/
  | decRemoteAtCommandRequest (p : List Byte)
  /-- DEC_ZIGBEE_TRANSMIT_REQUEST (R285). -/
  | decZigbeeTransmitRequest (p : List Byte)
  /-- DEC_EXPLICIT_ADDRESSING_ZIGBEE_COMMAND_FRAME (R286). -/
  | decExplicitAddressingZigbeeCommandFrame (p : List Byte)
  /-- DEC_TX_REQUEST_64 (R287). -/
  | decTxRequest64 (p : List Byte)
  /-- DEC_TX_REQUEST_16 (R288). -/
  | decTxRequest16 (p : List Byte)
  /-- DEC_UNREGISTERED: a tag that no other DEC row matches, or any tag when RAW_FRAMES = 1 (R314). A parser
  that `DEC_REG` holds and the table has no row for is this row's (log 26). -/
  | decUnregistered (tag : Byte) (p : List Byte)
  /-- AT_ND with status 0x00 and bytes remaining (R252, R254); `rest` is the cursor after the fixed fields. -/
  | atNd (head : AtHead) (rest : Cursor)
  /-- AT_IS_REMOTE, any status (R254, R265); `head` holds the message without the status. -/
  | atIsRemote (head : AtHead) (status : Option Byte) (rest : Cursor)
  /-- AT_OTHER (R252, R254); `head` holds the message without the mnemonic and the status. -/
  | atOther (head : AtHead) (command : Option Ascii2) (status : Option Byte) (rest : Cursor)
deriving DecidableEq, Repr

/-- The format of an instruction's row in spec/opcode_table.json. -/
def Instr.format : Instr → Format
  | .feed .. | .encode .. | .nextFrameId | .reset .. | .illegalCommand .. => .hostCommand
  | .rxStart | .rxEsc | .rxData .. => .rxByte
  | .encAtCommand .. | .encAtCommandQueueParameterValue .. | .encRemoteAtCommandRequest ..
  | .encZigbeeTransmitRequest .. | .encExplicitAddressingZigbeeCommandFrame ..
  | .encTxRequest64 .. | .encTxRequest16 .. | .encCreateSourceRoute .. => .frameTagEncode
  | .decAtCommandResponse .. | .decRemoteCommandResponse .. | .decModemStatus ..
  | .decZigbeeTransmitStatus .. | .decZigbeeReceivePacket .. | .decZigbeeExplicitRx ..
  | .decZigbeeIoDataSampleRx .. | .decXbeeSensorRead .. | .decNodeIdentification ..
  | .decRouteRecord .. | .decRxPacket64 .. | .decRxPacket16 .. | .decRxPacket64Io ..
  | .decRxPacket16Io .. | .decTxStatus .. | .decAtCommand ..
  | .decAtCommandQueueParameterValue .. | .decRemoteAtCommandRequest ..
  | .decZigbeeTransmitRequest .. | .decExplicitAddressingZigbeeCommandFrame ..
  | .decTxRequest64 .. | .decTxRequest16 .. | .decUnregistered .. => .frameTagDecode
  | .atNd .. | .atIsRemote .. | .atOther .. => .atMnemonic

end Sys2Proof
end

