-- ==== Sys2Proof/Config.lean ====
section
/-! DEFINITION. What no run can change: the constants the source fixes (R7), the values the spec leaves
open, and the parameters of R9 as one record, `Parameters`, which the machine takes as an argument. Their
default instances stand in Sys2Proof/Machine/Params.lean. -/

namespace Sys2Proof.Config

/-- The start marker (R7, R111). -/
abbrev startMarker : Byte := 0x7E

/-- The escape marker (R7). -/
abbrev escapeMarker : Byte := 0x7D

/-- The escape XOR mask (R7). -/
abbrev escapeXor : Byte := 0x20

/-- DESIGN CHOICE (log 9), safe: the value of HUMIDITY_FN for a divisor channel of 0 mV, as a function of
the other channel. The spec calls it undefined (R274, 93_implementation_defined.md U11): a free value, in
hundredths of a percent. -/
opaque humidityOfZeroDivisor : Nat → Int

/-- UNVERIFIED (log 21), safe: the sentinel UNKNOWN_64, which R9 leaves open with no default. No rule
reads it. -/
opaque unknown64 : Addr64

end Sys2Proof.Config

namespace Sys2Proof.Machine

/-- The six configuration registers, numbers 0 to 5 in order (R45). -/
structure ConfigRegs where
  apiMode : BitVec 8
  rawFrames : Bool
  convertAdc : Bool
  vrefAdc : BitVec 16
  rxCap : BitVec 17
  txCap : BitVec 32
deriving DecidableEq, Repr

/-- Why a parser fails (R380, R385): truncation at a cursor position (R233), or an analog bit with no
channel name (R263). -/
inductive ParseFail where
  | truncated (pos : Nat)
  | unnamedChannel (bit : Nat)
deriving DecidableEq, Repr

/-- A parser reads from a cursor and yields a value or fails (R230, R233). -/
abbrev Parse (α : Type) := StateT Cursor (Except ParseFail) α

/-- How the parser of a frame type ends: with its message, or at the AT branch, local or remote, with the
message parsed so far (R251, R253). -/
inductive ParseEnd where
  | message (m : Message)
  | atBranch (remote : Bool) (m : Message)
deriving DecidableEq, Repr

end Sys2Proof.Machine

namespace Sys2Proof

open Sys2Proof.Machine

/-- `ENC_DEFAULTS` (R9): the defaults of the optional 1-byte fields of R200. The optional `destination16`
defaults to UNKNOWN_16, a trailing field to the empty sequence (R193).
DESIGN CHOICE, safe (log 27): one default for each field name, which the rows that have the field share
(`broadcastRadius` in two, `options` in four); a row with a default of its own is another layout of ENC_REG. -/
structure EncDefaults where
  remoteCommandOptions : Byte
  broadcastRadius : Byte
  options : Byte
deriving DecidableEq, Repr

/-- The parameters of R9 that are values and functions, all but the registry. -/
structure Values where
  /-- `CFG_INIT`. -/
  cfgInit : ConfigRecord
  /-- `XON`. -/
  xon : Byte
  /-- `XOFF`. -/
  xoff : Byte
  /-- `ENC_DEFAULTS`. -/
  encDefaults : EncDefaults
  /-- `UNKNOWN_16`. -/
  unknown16 : Addr16
  /-- `UNKNOWN_64`; no rule reads it. -/
  unknown64 : Addr64
  /-- `BROADCAST_16`; no rule reads it. -/
  broadcast16 : Addr16
  /-- `DIGITAL_NAMES` (R262). -/
  digitalName : Nat → Option Channel
  /-- `ANALOG_NAMES` (R262). -/
  analogName : Nat → Option Channel
  /-- `SENSOR_TEMP_FLAG` (R272). -/
  sensorTempFlag : Byte
  /-- `SENSOR_RH_FLAG` (R272). -/
  sensorRhFlag : Byte
  /-- `HUMIDITY_FN` of two channels in millivolts, in hundredths of a percent (R273). -/
  humidity : Nat → Nat → Int
  /-- `TRUE_HUMIDITY_FN` of a humidity in hundredths and a temperature in sixteenths (R275). -/
  trueHumidity : Int → Int → Int
  /-- The layout of the node-identification payload (R267), which parser 0x95 and AT_ND share. -/
  nodeIdPayload : Parse NodeId

/-- A serializer of `ENC_REG`, as `Encode` uses it (R181): whether the type carries an id, its required
fields in order, the bytes of its fields, and the ranges its layout gives them (R200). -/
structure Serializer where
  hasId : Bool
  required : List FieldName
  fields : Values → Message → List Byte
  /-- The message's fields lie in the layout's ranges; another message is refused by the host's conversion
  (D35). -/
  admits : Message → Bool := fun _ => true

/-- A parser of `DEC_REG`, as `Decode` uses it (R230): it continues a message from the cursor. -/
abbrev Parser := Values → ConfigRegs → Message → Parse ParseEnd

/-- The parameters of R9. The registry (R124, R200, R250) gives each frame type its tag and, where it has
one, its serializer and its parser, layout included: to the types R124 names and to any other tag. -/
structure Parameters extends Values where
  /-- The type-tag map of the named types (R124); an unnamed type is its own tag. -/
  tag : FrameType → Byte
  /-- `ENC_REG`. -/
  encReg : FrameType → Option Serializer
  /-- `DEC_REG`. -/
  decReg : FrameType → Option Parser

end Sys2Proof
end

