-- ==== Sys2Proof/Machine/Flags.lean ====
section
/-! DEFINITION. The combinational functions of the block: the checksum (spec/30_encoding.md R114), the
configuration registers (spec/10_state.md R45) and their legal values (spec/00_scope.md R11), the ADC and
sensor conversions (spec/42_decoder.md R264, R270, R271). -/

namespace Sys2Proof.Machine

/-- The 8-bit sum of a byte sequence (R114). -/
def sumBytes (d : List Byte) : Byte := d.foldr (· + ·) 0

/-- `0xFF - (sum mod 256)` over the frame data (R114). -/
def checksum (d : List Byte) : Byte := 0xFF - sumBytes d

/-- The checksum the reassembler expects of the running sum (R313). -/
def expectedChecksum (sum : Byte) : Byte := 0xFF - sum

/-- The checksum validator (R321). -/
def checksumValid (sum chk : Byte) : Bool := chk == expectedChecksum sum

/-- The codec is in escaped mode iff API_MODE = 2 (R46, R190). -/
def ConfigRegs.escapedMode (c : ConfigRegs) : Bool := c.apiMode == 2

/-- The registers that a legal configuration record loads (R45, R354). A TX_CAP beyond its 32-bit register
is held as the register's greatest value: no frame is that long, so no rule tells the two apart (DEDUCED,
log 15), safe. -/
def ConfigRegs.ofRecord (c : ConfigRecord) : ConfigRegs :=
  { apiMode := BitVec.ofNat 8 c.apiMode
    rawFrames := c.rawFrames == 1
    convertAdc := c.convertAdc == 1
    vrefAdc := BitVec.ofNat 16 c.vrefAdc
    rxCap := BitVec.ofNat 17 c.rxCap
    txCap := BitVec.ofNat 32 (min c.txCap (2 ^ 32 - 1)) }

/-- The legal configuration records (R11, R45). -/
def legalConfig (c : ConfigRecord) : Bool :=
  decide ((c.apiMode = 1 ∨ c.apiMode = 2) ∧ c.rawFrames ≤ 1 ∧ c.convertAdc ≤ 1 ∧ c.vrefAdc ≤ 65535 ∧
    5 ≤ c.rxCap ∧ c.rxCap ≤ 65539 ∧ 5 ≤ c.txCap)

/-- ADC scaling to millivolts, or the raw value when CONVERT_ADC = 0 (R264). -/
def scaleAdc (c : ConfigRegs) (raw : Half) : Nat :=
  if c.convertAdc then (2 * raw.toNat * c.vrefAdc.toNat + 1023) / 2046 else raw.toNat

/-- `SensorMv(raw) = 20 * raw` (R270). -/
def sensorMv (raw : Half) : Nat := 20 * raw.toNat

/-- `Temp16(T)`, in sixteenths of a degree (R271). -/
def temp16 (t : Half) : Int :=
  if t.toNat < 2048 then (t.toNat : Int) else -((t &&& 0x7FF).toNat : Int)

/-- `temperature16`, present iff its flag is set (R269, R272). -/
def temperatureOf (V : Values) (sensors : Byte) (t : Half) : Option Int :=
  if sensors &&& V.sensorTempFlag ≠ 0 then some (temp16 t) else none

/-- `relativeHumidity`, present iff its flag is set (R269, R273). -/
def humidityOf (V : Values) (sensors : Byte) (ad2 ad3 : Nat) : Option Int :=
  if sensors &&& V.sensorRhFlag ≠ 0 then some (V.humidity ad2 ad3) else none

/-- `trueHumidity`, present iff both fields it is computed from are present (R275). -/
def trueHumidityOf (V : Values) (rh t16 : Option Int) : Option Int :=
  match rh, t16 with
  | some h, some t => some (V.trueHumidity h t)
  | _, _ => none

/-- "Success" (R252, 92_eei_decisions.md D22; G15 lists it as general knowledge). PRESUMED (log 7), unsafe. -/
def successStatus : Byte := 0x00

end Sys2Proof.Machine
end

