-- ==== Sys2Proof/Machine/Operands.lean ====
section
/-! DEFINITION. Operand forms: big-endian halves (spec/20_memory.md R84 to R86), the fields a serializer
writes (spec/41_encoder.md R191, R192), the cursor primitives a parser reads with
(spec/42_decoder.md R232), and the conditions of the AT branches (R252, R254). -/

namespace Sys2Proof

/-- The bytes of a 16-bit address in wire order (R191). -/
def Addr16.bytes (a : Addr16) : List Byte := [a.b0, a.b1]

/-- The bytes of a 64-bit address in wire order (R191). -/
def Addr64.bytes (a : Addr64) : List Byte := [a.b0, a.b1, a.b2, a.b3, a.b4, a.b5, a.b6, a.b7]

/-- The bytes of a mnemonic (R127). -/
def Ascii2.bytes (c : Ascii2) : List Byte := [c.c0, c.c1]

/-- The mnemonic `ND` (R127). -/
def Ascii2.nd : Ascii2 := ⟨0x4E, 0x44⟩

/-- The mnemonic `IS` (R127). -/
def Ascii2.is : Ascii2 := ⟨0x49, 0x53⟩

end Sys2Proof

namespace Sys2Proof

/-- `m[name] <- v` (R16, R261): a name the map holds keeps its place and takes the new value. -/
def ChannelMap.assign : ChannelMap → Channel → Nat → ChannelMap
  | [], name, v => [(name, v)]
  | e :: m, name, v => if e.1 = name then (name, v) :: m else e :: ChannelMap.assign m name v

/-- The map that assignments leave, in their order, from the empty one (R260). -/
def ChannelMap.ofAssignments (es : List (Channel × Nat)) : ChannelMap :=
  es.foldl (fun m e => m.assign e.1 e.2) []

end Sys2Proof

namespace Sys2Proof.Machine

/-- `be16(hi, lo)` (R13). -/
def be16 (hi lo : Byte) : Half := hi ++ lo

/-- `be16bytes(v)` (R13). -/
def be16bytes (v : Half) : List Byte := [v.extractLsb' 8 8, v.extractLsb' 0 8]

/-- A cluster or profile id on the wire: both ways of giving it produce the same bytes (R85, R192). -/
def idBytes : Id16 → List Byte
  | .number v => be16bytes v
  | .raw a => a.bytes

/-- A parser on a cursor. -/
def Parse.runOn {α : Type} (x : Parse α) (c : Cursor) : Except ParseFail α :=
  match x c with
  | .ok (a, _) => .ok a
  | .error e => .error e

/-- `U8()` (R232). -/
def readU8 : Parse Byte := fun c =>
  match c.rest with
  | b :: r => .ok (b, ⟨c.pos + 1, r⟩)
  | _ => .error (.truncated c.pos)

/-- `U16()`, big-endian (R232, R86). -/
def readU16 : Parse Half := fun c =>
  match c.rest with
  | h :: l :: r => .ok (be16 h l, ⟨c.pos + 2, r⟩)
  | _ => .error (.truncated c.pos)

/-- `A16()`, wire order (R232). -/
def readA16 : Parse Addr16 := fun c =>
  match c.rest with
  | a :: b :: r => .ok (⟨a, b⟩, ⟨c.pos + 2, r⟩)
  | _ => .error (.truncated c.pos)

/-- `A64()`, wire order (R232). -/
def readA64 : Parse Addr64 := fun c =>
  match c.rest with
  | a0 :: a1 :: a2 :: a3 :: a4 :: a5 :: a6 :: a7 :: r =>
    .ok (⟨a0, a1, a2, a3, a4, a5, a6, a7⟩, ⟨c.pos + 8, r⟩)
  | _ => .error (.truncated c.pos)

/-- `ASCII2()` (R232). -/
def readAscii2 : Parse Ascii2 := fun c =>
  match c.rest with
  | a :: b :: r => .ok (⟨a, b⟩, ⟨c.pos + 2, r⟩)
  | _ => .error (.truncated c.pos)

/-- The bytes before the first NUL and the bytes after it; none without a NUL. -/
def splitNul : List Byte → Option (List Byte × List Byte)
  | [] => none
  | b :: r =>
    if b = 0 then some ([], r)
    else match splitNul r with
      | some (v, after) => some (b :: v, after)
      | none => none

/-- `CStr()`: the NUL is consumed, not returned (R232). -/
def readCStr : Parse (List Byte) := fun c =>
  match splitNul c.rest with
  | some (v, r) => .ok (v, ⟨c.pos + v.length + 1, r⟩)
  | none => .error (.truncated c.pos)

/-- `Rest()`, possibly empty (R232). -/
def readRest : Parse (List Byte) := fun c => .ok (c.rest, ⟨c.pos + c.rest.length, []⟩)

/-- `Remaining()` (R232). -/
def remaining : Parse Nat := fun c => .ok (c.rest.length, c)

/-- The failure of a parser that is not a truncation (R263). -/
def failWith {α : Type} (e : ParseFail) : Parse α := fun _ => .error e

/-- `n` consecutive `U16()` (R276, R281). -/
def readU16s : Nat → Parse (List Half)
  | 0 => pure []
  | n + 1 => do
    let v ← readU16
    let vs ← readU16s n
    pure (v :: vs)

/-! ## The conditions of the AT branches -/

/-- The condition of the `ND` branch: success status and bytes remaining (R252, R254). -/
abbrev isNd (m : Message) (c : Cursor) : Bool :=
  decide (m.command = some Ascii2.nd ∧ m.commandStatus = some successStatus ∧ c.rest ≠ [])

/-- The condition of the `IS` branch: the mnemonic, on the remote path only (R254). -/
abbrev isRemoteIs (remote : Bool) (m : Message) : Bool :=
  decide (remote = true ∧ m.command = some Ascii2.is)

end Sys2Proof.Machine
end

