-- ==== Sys2Proof/Machine/Parsers.lean ====
section
/-! DEFINITION. The payload parsers (spec/42_decoder.md R251 to R288), pure functions from a cursor to a
message: the default instances of DEC_REG. No parser writes any state; the I/O sample parser alone reads
configuration (R264). The layouts not in the source are PRESUMED (log 5), unsafe. -/

namespace Sys2Proof.Machine

/-! ## I/O samples (R260 to R265) -/

/-- The named bits of the shared digital word, each assigned to its name, ascending; an unnamed bit is
ignored (R260, R261). -/
def digitalMap (V : Values) (mask value : Half) : ChannelMap :=
  ChannelMap.ofAssignments ((List.range 16).filterMap fun bit =>
    if mask.getLsbD bit then
      (V.digitalName bit).map fun name => (name, (value.getLsbD bit).toNat)
    else none)

/-- The digital word is read only when its mask is not 0 (R260). -/
def readDigital (V : Values) (mask : Half) : Parse ChannelMap :=
  if mask = 0 then pure []
  else do
    let value ← readU16
    pure (digitalMap V mask value)

/-- The names and scaled values of the set bits, ascending: one analog word for each, read before its name
is looked up (R260, R263). -/
def readAnalogSamples (V : Values) (c : ConfigRegs) (mask : Byte) : List Nat → Parse (List (Channel × Nat))
  | [] => pure []
  | bit :: bits =>
    if mask.getLsbD bit then do
      let raw ← readU16
      match V.analogName bit with
      | none => failWith (.unnamedChannel bit)
      | some name => do
        let others ← readAnalogSamples V c mask bits
        pure ((name, scaleAdc c raw) :: others)
    else readAnalogSamples V c mask bits

/-- Each analog sample is assigned to its name (R263). -/
def readAnalog (V : Values) (c : ConfigRegs) (mask : Byte) : Parse ChannelMap := do
  let samples ← readAnalogSamples V c mask (List.range 8)
  pure (ChannelMap.ofAssignments samples)

/-- The reads of `IOSamplePayload` (R260). -/
def readIoSamples (V : Values) (c : ConfigRegs) (m : Message) : Parse Message := do
  let numSamples ← readU8
  let maskD ← readU16
  let maskA ← readU8
  let digital ← readDigital V maskD
  let analog ← readAnalog V c maskA
  pure { m with numSamples := some numSamples, digitalSamples := some (.named digital),
                analogSamples := some (.named analog) }

/-- `IOSamplePayload` with a status or none: a status other than success reads nothing (R260, R265). -/
def readIoSamplePayload (V : Values) (c : ConfigRegs) (m : Message) (status : Option Byte) :
    Parse Message :=
  if status.getD successStatus = successStatus then readIoSamples V c m
  else pure { m with numSamples := some 0, digitalSamples := some (.named []),
                     analogSamples := some (.named []) }

/-! ## Node identification (R267, R268) -/

/-- The five extension fields (R267). -/
def readNodeExtension : Parse NodeExtension := do
  let remoteParent16 ← readA16
  let deviceType ← readU8
  let sourceEvent ← readU8
  let digiProfileID ← readA16
  let digiManufacturerID ← readA16
  pure { remoteParent16, deviceType, sourceEvent, digiProfileID, digiManufacturerID }

/-- The extension is read only if bytes remain (R268). -/
def readOptionalExtension : Parse (Option NodeExtension) := do
  let n ← remaining
  if n = 0 then pure none
  else do
    let e ← readNodeExtension
    pure (some e)

/-- `NodeIdPayload` (R267), its default layout. PRESUMED (log 5), unsafe. -/
def readNodeId : Parse NodeId := do
  let remote16 ← readA16
  let remote64 ← readA64
  let nodeIdentifier ← readCStr
  let extension ← readOptionalExtension
  pure { remote16, remote64, nodeIdentifier, extension }

/-! ## Legacy I/O (R281) -/

/-- The analog bits of the legacy mask, 9 to 14, as channel numbers 0 to 5 (R281). -/
def legacyAnalog (mask : Half) : List Nat := (List.range 6).filter fun a => mask.getLsbD (a + 9)

/-- The digital bits of the legacy mask, 0 to 8 (R281). -/
def legacyDigital (mask : Half) : List Nat := (List.range 9).filter fun d => mask.getLsbD d

/-- One analog value for each analog channel, ascending (R281). -/
def readLegacySample : List Nat → Parse ChannelMap
  | [] => pure []
  | a :: as => do
    let v ← readU16
    let others ← readLegacySample as
    pure ((.adc a, v.toNat) :: others)

/-- The analog samples, one map for each sample (R281). -/
def readLegacySamples (as : List Nat) : Nat → Parse (List ChannelMap)
  | 0 => pure []
  | n + 1 => do
    let m ← readLegacySample as
    let ms ← readLegacySamples as n
    pure (m :: ms)

/-- `LegacyIO` (R281). `channels` is a set, of which the spec fixes no order and R16 lists no kind: the model
holds it as a list, the `ADC` names ascending and then the `DIO` names ascending, in the order in which R281
adds the two parts. DESIGN CHOICE (log 19), safe: the list is a representation of the set, and the spec
states no order for it to agree with. -/
def readLegacyIo (m : Message) : Parse Message := do
  let quantity ← readU8
  let mask ← readU16
  let words ← readU16s (if mask &&& 0x1FF = 0 then 0 else quantity.toNat)
  let analog ← readLegacySamples (legacyAnalog mask) quantity.toNat
  pure { m with sampleQuantity := some quantity, channelMask := some mask,
                channels := some ((legacyAnalog mask).map .adc ++ (legacyDigital mask).map .dio),
                digitalSamples := some (.words words), analogSamples := some (.perSample analog) }

/-! ## The parsers of the table (R250) -/

/-- MODEM_STATUS (R255). -/
def parseModemStatus : Parser := fun _ _ m => do
  let modemStatus ← readU8
  pure (.message { m with modemStatus := some modemStatus })

/-- ZIGBEE_TRANSMIT_STATUS (R256). -/
def parseZigbeeTransmitStatus : Parser := fun _ _ m => do
  let id ← readU8
  let remote16 ← readA16
  let transmitRetryCount ← readU8
  let deliveryStatus ← readU8
  let discoveryStatus ← readU8
  pure (.message { m with
    id := some id, remote16 := some remote16, transmitRetryCount := some transmitRetryCount,
    deliveryStatus := some deliveryStatus, discoveryStatus := some discoveryStatus })

/-- ZIGBEE_RECEIVE_PACKET (R257). -/
def parseZigbeeReceivePacket : Parser := fun _ _ m => do
  let remote64 ← readA64
  let remote16 ← readA16
  let receiveOptions ← readU8
  let data ← readRest
  pure (.message { m with
    remote64 := some remote64, remote16 := some remote16, receiveOptions := some receiveOptions,
    data := some data })

/-- ZIGBEE_EXPLICIT_RX (R258). -/
def parseZigbeeExplicitRx : Parser := fun _ _ m => do
  let remote64 ← readA64
  let remote16 ← readA16
  let sourceEndpoint ← readU8
  let destinationEndpoint ← readU8
  let clusterId ← readA16
  let profileId ← readA16
  let receiveOptions ← readU8
  let data ← readRest
  pure (.message { m with
    remote64 := some remote64, remote16 := some remote16, sourceEndpoint := some sourceEndpoint,
    destinationEndpoint := some destinationEndpoint, clusterId := some (.raw clusterId),
    profileId := some (.raw profileId), receiveOptions := some receiveOptions, data := some data })

/-- ZIGBEE_IO_DATA_SAMPLE_RX (R259). -/
def parseZigbeeIoDataSampleRx : Parser := fun V c m => do
  let remote64 ← readA64
  let remote16 ← readA16
  let receiveOptions ← readU8
  let m ← readIoSamplePayload V c { m with
    remote64 := some remote64, remote16 := some remote16, receiveOptions := some receiveOptions } none
  pure (.message m)

/-- The sensor message of the words read: raw words converted, derived fields present or absent
(R269 to R275). -/
def sensorMessage (V : Values) (m : Message) (sensors : Byte) (w0 w1 w2 w3 t : Half) : Message :=
  let rh := humidityOf V sensors (sensorMv w2) (sensorMv w3)
  let temperature := temperatureOf V sensors t
  { m with
    sensors := some sensors, AD := some [sensorMv w0, sensorMv w1, sensorMv w2, sensorMv w3],
    T := some t, temperature16 := temperature, relativeHumidity := rh,
    trueHumidity := trueHumidityOf V rh temperature }

/-- XBEE_SENSOR_READ (R269). -/
def parseXbeeSensorRead : Parser := fun V _ m => do
  let remote64 ← readA64
  let remote16 ← readA16
  let receiveOptions ← readU8
  let sensors ← readU8
  let w0 ← readU16
  let w1 ← readU16
  let w2 ← readU16
  let w3 ← readU16
  let t ← readU16
  pure (.message (sensorMessage V
    { m with remote64 := some remote64, remote16 := some remote16, receiveOptions := some receiveOptions }
    sensors w0 w1 w2 w3 t))

/-- The fields of a node-identification payload, in the message itself (R266, R267). -/
def nodeIdMessage (m : Message) (n : NodeId) : Message :=
  { m with
    remote16 := some n.remote16, remote64 := some n.remote64, nodeIdentifier := some n.nodeIdentifier,
    remoteParent16 := n.extension.map (·.remoteParent16),
    deviceType := n.extension.map (·.deviceType), sourceEvent := n.extension.map (·.sourceEvent),
    digiProfileID := n.extension.map (·.digiProfileID),
    digiManufacturerID := n.extension.map (·.digiManufacturerID) }

/-- NODE_IDENTIFICATION (R266). -/
def parseNodeIdentification : Parser := fun V _ m => do
  let sender64 ← readA64
  let sender16 ← readA16
  let receiveOptions ← readU8
  let n ← V.nodeIdPayload
  pure (.message (nodeIdMessage
    { m with sender64 := some sender64, sender16 := some sender16, receiveOptions := some receiveOptions }
    n))

/-- ROUTE_RECORD (R276). -/
def parseRouteRecord : Parser := fun _ _ m => do
  let remote64 ← readA64
  let remote16 ← readA16
  let receiveOptions ← readU8
  let hopCount ← readU8
  let addresses ← readU16s hopCount.toNat
  pure (.message { m with
    remote64 := some remote64, remote16 := some remote16, receiveOptions := some receiveOptions,
    hopCount := some hopCount, addresses := some addresses })

/-- The layout of RX_PACKET_64, shared by RX_PACKET_64_IO (R277, R279). -/
def parsePacket64 : Parser := fun _ _ m => do
  let remote64 ← readA64
  let rssi ← readU8
  let receiveOptions ← readU8
  let data ← readRest
  pure (.message { m with
    remote64 := some remote64, rssi := some rssi, receiveOptions := some receiveOptions,
    data := some data })

/-- RX_PACKET_16 (R278). -/
def parseRxPacket16 : Parser := fun _ _ m => do
  let remote16 ← readA16
  let rssi ← readU8
  let receiveOptions ← readU8
  let data ← readRest
  pure (.message { m with
    remote16 := some remote16, rssi := some rssi, receiveOptions := some receiveOptions,
    data := some data })

/-- RX_PACKET_16_IO (R280). -/
def parseRxPacket16Io : Parser := fun _ _ m => do
  let remote16 ← readA16
  let rssi ← readU8
  let receiveOptions ← readU8
  let m ← readLegacyIo { m with
    remote16 := some remote16, rssi := some rssi, receiveOptions := some receiveOptions }
  pure (.message m)

/-- TX_STATUS (R282). -/
def parseTxStatus : Parser := fun _ _ m => do
  let id ← readU8
  let deliveryStatus ← readU8
  pure (.message { m with id := some id, deliveryStatus := some deliveryStatus })

/-- The layout of both AT command requests (R283). -/
def parseAtRequest : Parser := fun _ _ m => do
  let id ← readU8
  let command ← readAscii2
  let commandParameter ← readRest
  pure (.message { m with
    id := some id, command := some command, commandParameter := some commandParameter })

/-- REMOTE_AT_COMMAND_REQUEST (R284). -/
def parseRemoteAtCommandRequest : Parser := fun _ _ m => do
  let id ← readU8
  let destination64 ← readA64
  let destination16 ← readA16
  let remoteCommandOptions ← readU8
  let command ← readAscii2
  let commandParameter ← readRest
  pure (.message { m with
    id := some id, destination64 := some destination64, destination16 := some destination16,
    remoteCommandOptions := some remoteCommandOptions, command := some command,
    commandParameter := some commandParameter })

/-- ZIGBEE_TRANSMIT_REQUEST (R285). -/
def parseZigbeeTransmitRequest : Parser := fun _ _ m => do
  let id ← readU8
  let destination64 ← readA64
  let destination16 ← readA16
  let broadcastRadius ← readU8
  let options ← readU8
  let data ← readRest
  pure (.message { m with
    id := some id, destination64 := some destination64, destination16 := some destination16,
    broadcastRadius := some broadcastRadius, options := some options, data := some data })

/-- EXPLICIT_ADDRESSING_ZIGBEE_COMMAND_FRAME (R286). -/
def parseExplicitAddressing : Parser := fun _ _ m => do
  let id ← readU8
  let destination64 ← readA64
  let destination16 ← readA16
  let sourceEndpoint ← readU8
  let destinationEndpoint ← readU8
  let clusterId ← readU16
  let profileId ← readU16
  let broadcastRadius ← readU8
  let options ← readU8
  let data ← readRest
  pure (.message { m with
    id := some id, destination64 := some destination64, destination16 := some destination16,
    sourceEndpoint := some sourceEndpoint, destinationEndpoint := some destinationEndpoint,
    clusterId := some (.number clusterId), profileId := some (.number profileId),
    broadcastRadius := some broadcastRadius, options := some options, data := some data })

/-- TX_REQUEST_64 (R287). -/
def parseTxRequest64 : Parser := fun _ _ m => do
  let id ← readU8
  let destination64 ← readA64
  let options ← readU8
  let data ← readRest
  pure (.message { m with
    id := some id, destination64 := some destination64, options := some options, data := some data })

/-- TX_REQUEST_16 (R288). -/
def parseTxRequest16 : Parser := fun _ _ m => do
  let id ← readU8
  let destination16 ← readA16
  let options ← readU8
  let data ← readRest
  pure (.message { m with
    id := some id, destination16 := some destination16, options := some options, data := some data })


/-! ## AT responses (R251 to R254) -/

/-- AT_COMMAND_RESPONSE up to its AT branch (R251). -/
def parseAtCommandResponse : Parser := fun _ _ m => do
  let id ← readU8
  let command ← readAscii2
  let commandStatus ← readU8
  pure (.atBranch false { m with
    id := some id, command := some command, commandStatus := some commandStatus })

/-- REMOTE_COMMAND_RESPONSE up to its AT branch (R253). -/
def parseRemoteCommandResponse : Parser := fun _ _ m => do
  let id ← readU8
  let remote64 ← readA64
  let remote16 ← readA16
  let command ← readAscii2
  let commandStatus ← readU8
  pure (.atBranch true { m with
    id := some id, remote64 := some remote64, remote16 := some remote16, command := some command,
    commandStatus := some commandStatus })

/-- The branch taken by `ND` (R252, R254). -/
def branchNd (V : Values) (m : Message) : Parse Message := do
  let n ← V.nodeIdPayload
  pure { m with nodeIdentification := some n }

/-- The branch of every other mnemonic: the remaining bytes are opaque (R252, R254). -/
def branchOther (m : Message) : Parse Message := do
  let data ← readRest
  pure { m with commandData := some data }

/-- The default parser table (R250). -/
def defaultParser : FrameType → Option Parser
  | .atCommandResponse => some parseAtCommandResponse
  | .modemStatus => some parseModemStatus
  | .zigbeeTransmitStatus => some parseZigbeeTransmitStatus
  | .zigbeeReceivePacket => some parseZigbeeReceivePacket
  | .zigbeeExplicitRx => some parseZigbeeExplicitRx
  | .zigbeeIoDataSampleRx => some parseZigbeeIoDataSampleRx
  | .xbeeSensorRead => some parseXbeeSensorRead
  | .nodeIdentification => some parseNodeIdentification
  | .remoteCommandResponse => some parseRemoteCommandResponse
  | .routeRecord => some parseRouteRecord
  | .rxPacket64 => some parsePacket64
  | .rxPacket16 => some parseRxPacket16
  | .rxPacket64Io => some parsePacket64
  | .rxPacket16Io => some parseRxPacket16Io
  | .txStatus => some parseTxStatus
  | .atCommand => some parseAtRequest
  | .atCommandQueueParameterValue => some parseAtRequest
  | .remoteAtCommandRequest => some parseRemoteAtCommandRequest
  | .zigbeeTransmitRequest => some parseZigbeeTransmitRequest
  | .explicitAddressingZigbeeCommandFrame => some parseExplicitAddressing
  | .txRequest64 => some parseTxRequest64
  | .txRequest16 => some parseTxRequest16
  -- CREATE_SOURCE_ROUTE and every tag R124 does not name have no parser
  | .createSourceRoute | .unnamed _ => none

end Sys2Proof.Machine
end

