-- ==== Sys2Proof/Machine/Serializers.lean ====
section
/-! DEFINITION. The payload serializers (spec/41_encoder.md R200 to R208): the default instances of
ENC_REG. All but AT_COMMAND's first fields are PRESUMED (log 4), unsafe. -/

namespace Sys2Proof.Machine

/-- Whether a message omits a field (R193). -/
def lacks (m : Message) : FieldName → Bool
  | .id => m.id.isNone
  | .command => m.command.isNone
  | .commandParameter => m.commandParameter.isNone
  | .commandStatus => m.commandStatus.isNone
  | .commandData => m.commandData.isNone
  | .nodeIdentification => m.nodeIdentification.isNone
  | .destination64 => m.destination64.isNone
  | .destination16 => m.destination16.isNone
  | .remoteCommandOptions => m.remoteCommandOptions.isNone
  | .broadcastRadius => m.broadcastRadius.isNone
  | .options => m.options.isNone
  | .sourceEndpoint => m.sourceEndpoint.isNone
  | .destinationEndpoint => m.destinationEndpoint.isNone
  | .clusterId => m.clusterId.isNone
  | .profileId => m.profileId.isNone
  | .data => m.data.isNone
  | .addresses => m.addresses.isNone
  | .remote64 => m.remote64.isNone
  | .remote16 => m.remote16.isNone
  | .sender64 => m.sender64.isNone
  | .sender16 => m.sender16.isNone
  | .receiveOptions => m.receiveOptions.isNone
  | .rssi => m.rssi.isNone
  | .modemStatus => m.modemStatus.isNone
  | .transmitRetryCount => m.transmitRetryCount.isNone
  | .deliveryStatus => m.deliveryStatus.isNone
  | .discoveryStatus => m.discoveryStatus.isNone
  | .numSamples => m.numSamples.isNone
  | .digitalSamples => m.digitalSamples.isNone
  | .analogSamples => m.analogSamples.isNone
  | .sampleQuantity => m.sampleQuantity.isNone
  | .channelMask => m.channelMask.isNone
  | .channels => m.channels.isNone
  | .nodeIdentifier => m.nodeIdentifier.isNone
  | .remoteParent16 => m.remoteParent16.isNone
  | .deviceType => m.deviceType.isNone
  | .sourceEvent => m.sourceEvent.isNone
  | .digiProfileID => m.digiProfileID.isNone
  | .digiManufacturerID => m.digiManufacturerID.isNone
  | .sensors => m.sensors.isNone
  | .AD => m.AD.isNone
  | .T => m.T.isNone
  | .temperature16 => m.temperature16.isNone
  | .relativeHumidity => m.relativeHumidity.isNone
  | .trueHumidity => m.trueHumidity.isNone
  | .hopCount => m.hopCount.isNone
  | .other name => (m.others.lookup name).isNone

/-- The bytes of a field: written by `f` where it is present, else its default (R193). A required field is
present when its bytes are asked for (R181). -/
def fieldBytes {α : Type} (f : α → List Byte) (default : List Byte) : Option α → List Byte
  | some a => f a
  | none => default

/-- A 1-byte field (R186). -/
def u8Field (v : Option Byte) (default : List Byte) : List Byte := fieldBytes (fun b => [b]) default v

/-- `destination64 a64 (req)`. -/
def destination64Field (m : Message) : List Byte := fieldBytes Addr64.bytes [] m.destination64

/-- `destination16 a16 (opt UNKNOWN_16)`. -/
def destination16Field (V : Values) (m : Message) : List Byte :=
  fieldBytes Addr16.bytes V.unknown16.bytes m.destination16

/-- `broadcastRadius u8 (opt), options u8 (opt), data bytes* (opt [])` of 0x10 and 0x11, with one default for
both rows (log 27). -/
def transmitTail (V : Values) (m : Message) : List Byte :=
  u8Field m.broadcastRadius [V.encDefaults.broadcastRadius] ++
    u8Field m.options [V.encDefaults.options] ++ m.data.getD []

/-- AT_COMMAND and AT_COMMAND_QUEUE_PARAMETER_VALUE (R201, R202). -/
def serializeAtCommand : Serializer where
  hasId := true
  required := [.command]
  fields _ m := fieldBytes Ascii2.bytes [] m.command ++ m.commandParameter.getD []

/-- REMOTE_AT_COMMAND_REQUEST (R203). -/
def serializeRemoteAtCommandRequest : Serializer where
  hasId := true
  required := [.destination64, .command]
  fields V m :=
    destination64Field m ++ destination16Field V m ++
      u8Field m.remoteCommandOptions [V.encDefaults.remoteCommandOptions] ++
      fieldBytes Ascii2.bytes [] m.command ++ m.commandParameter.getD []

/-- ZIGBEE_TRANSMIT_REQUEST (R204). -/
def serializeZigbeeTransmitRequest : Serializer where
  hasId := true
  required := [.destination64]
  fields V m := destination64Field m ++ destination16Field V m ++ transmitTail V m

/-- EXPLICIT_ADDRESSING_ZIGBEE_COMMAND_FRAME (R205). -/
def serializeExplicitAddressing : Serializer where
  hasId := true
  required := [.destination64, .sourceEndpoint, .destinationEndpoint, .clusterId, .profileId]
  fields V m :=
    destination64Field m ++ destination16Field V m ++ u8Field m.sourceEndpoint [] ++
      u8Field m.destinationEndpoint [] ++ fieldBytes idBytes [] m.clusterId ++
      fieldBytes idBytes [] m.profileId ++ transmitTail V m

/-- TX_REQUEST_64 (R206). -/
def serializeTxRequest64 : Serializer where
  hasId := true
  required := [.destination64]
  fields V m := destination64Field m ++ u8Field m.options [V.encDefaults.options] ++ m.data.getD []

/-- TX_REQUEST_16 (R207). -/
def serializeTxRequest16 : Serializer where
  hasId := true
  required := [.destination16]
  fields V m :=
    fieldBytes Addr16.bytes [] m.destination16 ++ u8Field m.options [V.encDefaults.options] ++
      m.data.getD []

/-- `addresses`: the count, then each address big-endian (R208). -/
def addressesField (rs : List Half) : List Byte :=
  BitVec.ofNat 8 rs.length :: rs.flatMap be16bytes

/-- CREATE_SOURCE_ROUTE, its routeCommandOptions fixed at 0x00, with 0..255 addresses (R200, R208). -/
def serializeCreateSourceRoute : Serializer where
  hasId := true
  required := [.destination64, .destination16, .addresses]
  fields _ m :=
    destination64Field m ++ fieldBytes Addr16.bytes [] m.destination16 ++ [0x00] ++
      fieldBytes addressesField [] m.addresses
  admits m := decide ((m.addresses.getD []).length ≤ 255)

/-- The default serializer table (R200). -/
def defaultSerializer : FrameType → Option Serializer
  | .atCommand => some serializeAtCommand
  | .atCommandQueueParameterValue => some serializeAtCommand
  | .remoteAtCommandRequest => some serializeRemoteAtCommandRequest
  | .zigbeeTransmitRequest => some serializeZigbeeTransmitRequest
  | .explicitAddressingZigbeeCommandFrame => some serializeExplicitAddressing
  | .txRequest64 => some serializeTxRequest64
  | .txRequest16 => some serializeTxRequest16
  | .createSourceRoute => some serializeCreateSourceRoute
  | .rxPacket64 | .rxPacket16 | .rxPacket64Io | .rxPacket16Io | .atCommandResponse | .txStatus
  | .modemStatus | .zigbeeTransmitStatus | .zigbeeReceivePacket | .zigbeeExplicitRx
  | .zigbeeIoDataSampleRx | .xbeeSensorRead | .nodeIdentification | .remoteCommandResponse
  | .routeRecord | .unnamed _ => none

end Sys2Proof.Machine
end

