-- ==== Sys2Proof/Machine/Params.lean ====
section
/-! DEFINITION. The default instance of each parameter of spec/00_scope.md R9, and the registry lookups. All
but the tags 0x08 and 0x8B are the spec's general knowledge (spec/93_implementation_defined.md Part 2):
PRESUMED, unsafe, log 1 to 8. The machine takes the parameters as an argument; `exec`, `step` and
`State.reset`, which the host runs, are the machine at `Params.default`. -/

namespace Sys2Proof.Params

/-- `CFG_INIT` (R9, D5). PRESUMED (log 1), unsafe. -/
def cfgInit : ConfigRecord :=
  { apiMode := 1, rawFrames := 0, convertAdc := 1, vrefAdc := 1200, rxCap := 512, txCap := 512 }

/-- `XON` (R9, R117). PRESUMED (log 2), unsafe. -/
def xon : Byte := 0x11

/-- `XOFF` (R9, R117). PRESUMED (log 2), unsafe. -/
def xoff : Byte := 0x13

/-- The default type-tag map (R124). PRESUMED (log 3), unsafe, but for 0x08 and 0x8B (R123). -/
def tag : FrameType → Byte
  | .txRequest64 => 0x00
  | .txRequest16 => 0x01
  | .atCommand => 0x08
  | .atCommandQueueParameterValue => 0x09
  | .zigbeeTransmitRequest => 0x10
  | .explicitAddressingZigbeeCommandFrame => 0x11
  | .remoteAtCommandRequest => 0x17
  | .createSourceRoute => 0x21
  | .rxPacket64 => 0x80
  | .rxPacket16 => 0x81
  | .rxPacket64Io => 0x82
  | .rxPacket16Io => 0x83
  | .atCommandResponse => 0x88
  | .txStatus => 0x89
  | .modemStatus => 0x8A
  | .zigbeeTransmitStatus => 0x8B
  | .zigbeeReceivePacket => 0x90
  | .zigbeeExplicitRx => 0x91
  | .zigbeeIoDataSampleRx => 0x92
  | .xbeeSensorRead => 0x94
  | .nodeIdentification => 0x95
  | .remoteCommandResponse => 0x97
  | .routeRecord => 0xA1
  | .unnamed t => t

/-- `UNKNOWN_16` (R9). PRESUMED (log 4), unsafe. -/
def unknown16 : Addr16 := ⟨0xFF, 0xFE⟩

/-- `BROADCAST_16` (R9); no rule reads it. PRESUMED (log 4), safe. -/
def broadcast16 : Addr16 := ⟨0xFF, 0xFF⟩

/-- `ENC_DEFAULTS` (R9, R200). PRESUMED (log 4), unsafe. -/
def encDefaults : EncDefaults := { remoteCommandOptions := 0x02, broadcastRadius := 0x00, options := 0x00 }

/-- `DIGITAL_NAMES` (R262). PRESUMED (log 6), unsafe, but for DIO2 to DIO4. -/
def digitalName (bit : Nat) : Option Channel :=
  if bit ≤ 7 ∨ (10 ≤ bit ∧ bit ≤ 12) then some (.dio bit) else none

/-- `ANALOG_NAMES` (R262). PRESUMED (log 6), unsafe, but for AD1. -/
def analogName (bit : Nat) : Option Channel :=
  if bit ≤ 3 then some (.ad bit) else if bit = 7 then some .supply else none

/-- `SENSOR_TEMP_FLAG` (R9, R272). PRESUMED (log 7), unsafe. -/
def sensorTempFlag : Byte := 0x02

/-- `SENSOR_RH_FLAG` (R9, R272). PRESUMED (log 7), unsafe. -/
def sensorRhFlag : Byte := 0x01

/-- `HUMIDITY_FN` (R273, R274), in hundredths of a percent: `r2(((ad3/ad2) - 0.16) / 0.0062)` in exact
arithmetic. For `ad2 = 0` the default is undefined: a free value (log 9). PRESUMED (log 8), unsafe. -/
def humidity (ad2 ad3 : Nat) : Int :=
  if ad2 = 0 then Config.humidityOfZeroDivisor ad3
  else (40000 * (25 * (ad3 : Int) - 4 * (ad2 : Int)) + 31 * (ad2 : Int)) / (62 * (ad2 : Int))

/-- `TRUE_HUMIDITY_FN` (R274, R275), in hundredths of a percent of a humidity in hundredths:
`r2(rh / (1.0546 - 0.00216 * (t16 / 16)))` in exact arithmetic. PRESUMED (log 8), unsafe. -/
def trueHumidity (rh t16 : Int) : Int :=
  (2 * 1000000 * rh + (1054600 - 135 * t16)) / (2 * (1054600 - 135 * t16))

/-- The default values (R9). -/
def values : Values :=
  { cfgInit, xon, xoff, encDefaults, unknown16, unknown64 := Config.unknown64, broadcast16, digitalName,
    analogName, sensorTempFlag, sensorRhFlag, humidity, trueHumidity
    nodeIdPayload := Machine.readNodeId }

/-- The default parameters (R9): `ENC_REG` and `DEC_REG` are the tables of R200 and R250. -/
def default : Parameters :=
  { values with tag, encReg := Machine.defaultSerializer, decReg := Machine.defaultParser }

end Sys2Proof.Params

namespace Sys2Proof

/-- The frame types R124 names. -/
def namedTypes : List FrameType :=
  [.txRequest64, .txRequest16, .atCommand, .atCommandQueueParameterValue, .zigbeeTransmitRequest,
   .explicitAddressingZigbeeCommandFrame, .remoteAtCommandRequest, .createSourceRoute, .rxPacket64,
   .rxPacket16, .rxPacket64Io, .rxPacket16Io, .atCommandResponse, .txStatus, .modemStatus,
   .zigbeeTransmitStatus, .zigbeeReceivePacket, .zigbeeExplicitRx, .zigbeeIoDataSampleRx, .xbeeSensorRead,
   .nodeIdentification, .remoteCommandResponse, .routeRecord]

/-- The frame types with an ENC row in spec/opcode_table.json. -/
def encRows : List FrameType :=
  [.atCommand, .atCommandQueueParameterValue, .remoteAtCommandRequest, .zigbeeTransmitRequest,
   .explicitAddressingZigbeeCommandFrame, .txRequest64, .txRequest16, .createSourceRoute]

/-- The frame types with a DEC row in spec/opcode_table.json. -/
def decRows : List FrameType :=
  [.atCommandResponse, .remoteCommandResponse, .modemStatus, .zigbeeTransmitStatus,
   .zigbeeReceivePacket, .zigbeeExplicitRx, .zigbeeIoDataSampleRx, .xbeeSensorRead,
   .nodeIdentification, .routeRecord, .rxPacket64, .rxPacket16, .rxPacket64Io, .rxPacket16Io,
   .txStatus, .atCommand, .atCommandQueueParameterValue, .remoteAtCommandRequest,
   .zigbeeTransmitRequest, .explicitAddressingZigbeeCommandFrame, .txRequest64, .txRequest16]

/-- The type of a tag among those a registry has, by exact match on all 8 bits (R122): a named type, or the
tag itself. -/
def Parameters.typeOf (P : Parameters) (registered : FrameType → Bool) (t : Byte) : Option FrameType :=
  match namedTypes.find? fun ty => P.tag ty == t && registered ty with
  | some ty => some ty
  | none => if registered (.unnamed t) then some (.unnamed t) else none

/-- The type whose serializer a message tag selects (R122, R185). -/
def Parameters.serializerType (P : Parameters) (t : Byte) : Option FrameType :=
  P.typeOf (fun ty => (P.encReg ty).isSome) t

/-- The type whose parser a frame tag selects (R122, R231). -/
def Parameters.parserType (P : Parameters) (t : Byte) : Option FrameType :=
  P.typeOf (fun ty => (P.decReg ty).isSome) t

/-- The parser of a tag that no DEC row but DEC_UNREGISTERED matches. -/
def Parameters.rowlessParser (P : Parameters) (t : Byte) : Option Parser :=
  match P.parserType t with
  | some ty => if decRows.contains ty then none else P.decReg ty
  | none => none

end Sys2Proof
end

