-- ==== Sys2Proof/WellFormed.lean ====
section
/-! DEFINITION. Which terms of `Instr` stand for an instruction of the block: the ranges the spec gives
the operands, and the registry's entry for a row of a frame type. -/

namespace Sys2Proof

open Sys2Proof.Machine

/-- A payload after type has at most 65534 bytes: L is at most 65535 and counts the type byte (R112, R130). -/
abbrev payloadFits (p : List Byte) : Bool := decide (p.length ≤ 65534)

/-- The message's fields lie in the ranges that the layout of a frame type gives them (R200, D35). -/
abbrev inLayoutRange (P : Parameters) (ty : FrameType) (m : Message) : Bool :=
  (P.encReg ty).all (·.admits m)

/-- The message's tag selects the serializer of an ENC row (R122), and its fields lie in the row's ranges. -/
abbrev selectsSerializer (P : Parameters) (ty : FrameType) (m : Message) : Bool :=
  decide (P.serializerType m.type = some ty) && inLayoutRange P ty m

/-- The tag of a DEC row selects its parser (R122), and the payload fits a frame. -/
abbrev selectsParser (P : Parameters) (ty : FrameType) (p : List Byte) : Bool :=
  decide (P.parserType (P.tag ty) = some ty) && payloadFits p

/-- The response and its AT branch fit one payload. -/
abbrev cursorFits (c : Cursor) : Bool := decide (c.pos + c.rest.length ≤ 65534)

/-- The well-formed instructions. A field that stands among a row's own operands is given there only, so that
the row's message has one reading. -/
def Instr.wellFormed (i : Instr) (P : Parameters := Params.default) : Bool :=
  match i with
  | .feed _ => true
  | .encode m => (P.serializerType m.type).all (inLayoutRange P · m)
  | .nextFrameId => true
  | .reset _ => true
  | .illegalCommand code => decide (code ≠ 0x01 ∧ code ≠ 0x02 ∧ code ≠ 0x03 ∧ code ≠ 0x04)
  | .rxStart => true
  | .rxEsc => true
  | .rxData _ => true
  | .encAtCommand id command rest =>
    selectsSerializer P .atCommand { rest with id, command } &&
      decide (rest.id = none ∧ rest.command = none)
  | .encAtCommandQueueParameterValue id command rest =>
    selectsSerializer P .atCommandQueueParameterValue { rest with id, command } &&
      decide (rest.id = none ∧ rest.command = none)
  | .encRemoteAtCommandRequest id destination64 destination16 remoteCommandOptions command rest =>
    selectsSerializer P .remoteAtCommandRequest { rest with
      id, destination64, destination16, remoteCommandOptions, command } &&
      decide (rest.id = none ∧ rest.destination64 = none ∧ rest.destination16 = none ∧
        rest.remoteCommandOptions = none ∧ rest.command = none)
  | .encZigbeeTransmitRequest id destination64 destination16 broadcastRadius options rest =>
    selectsSerializer P .zigbeeTransmitRequest { rest with
      id, destination64, destination16, broadcastRadius, options } &&
      decide (rest.id = none ∧ rest.destination64 = none ∧ rest.destination16 = none ∧
        rest.broadcastRadius = none ∧ rest.options = none)
  | .encExplicitAddressingZigbeeCommandFrame id destination64 destination16 sourceEndpoint
    destinationEndpoint clusterId profileId broadcastRadius options rest =>
    selectsSerializer P .explicitAddressingZigbeeCommandFrame { rest with
      id, destination64, destination16, sourceEndpoint, destinationEndpoint, clusterId, profileId,
      broadcastRadius, options } &&
      decide (rest.id = none ∧ rest.destination64 = none ∧ rest.destination16 = none ∧
        rest.sourceEndpoint = none ∧ rest.destinationEndpoint = none ∧ rest.clusterId = none ∧
        rest.profileId = none ∧ rest.broadcastRadius = none ∧ rest.options = none)
  | .encTxRequest64 id destination64 options rest =>
    selectsSerializer P .txRequest64 { rest with id, destination64, options } &&
      decide (rest.id = none ∧ rest.destination64 = none ∧ rest.options = none)
  | .encTxRequest16 id destination16 options rest =>
    selectsSerializer P .txRequest16 { rest with id, destination16, options } &&
      decide (rest.id = none ∧ rest.destination16 = none ∧ rest.options = none)
  | .encCreateSourceRoute id destination64 destination16 rest =>
    selectsSerializer P .createSourceRoute { rest with id, destination64, destination16 } &&
      decide (rest.id = none ∧ rest.destination64 = none ∧ rest.destination16 = none)
  | .decAtCommandResponse p => selectsParser P .atCommandResponse p
  | .decRemoteCommandResponse p => selectsParser P .remoteCommandResponse p
  | .decModemStatus p => selectsParser P .modemStatus p
  | .decZigbeeTransmitStatus p => selectsParser P .zigbeeTransmitStatus p
  | .decZigbeeReceivePacket p => selectsParser P .zigbeeReceivePacket p
  | .decZigbeeExplicitRx p => selectsParser P .zigbeeExplicitRx p
  | .decZigbeeIoDataSampleRx p => selectsParser P .zigbeeIoDataSampleRx p
  | .decXbeeSensorRead p => selectsParser P .xbeeSensorRead p
  | .decNodeIdentification p => selectsParser P .nodeIdentification p
  | .decRouteRecord p => selectsParser P .routeRecord p
  | .decRxPacket64 p => selectsParser P .rxPacket64 p
  | .decRxPacket16 p => selectsParser P .rxPacket16 p
  | .decRxPacket64Io p => selectsParser P .rxPacket64Io p
  | .decRxPacket16Io p => selectsParser P .rxPacket16Io p
  | .decTxStatus p => selectsParser P .txStatus p
  | .decAtCommand p => selectsParser P .atCommand p
  | .decAtCommandQueueParameterValue p => selectsParser P .atCommandQueueParameterValue p
  | .decRemoteAtCommandRequest p => selectsParser P .remoteAtCommandRequest p
  | .decZigbeeTransmitRequest p => selectsParser P .zigbeeTransmitRequest p
  | .decExplicitAddressingZigbeeCommandFrame p =>
    selectsParser P .explicitAddressingZigbeeCommandFrame p
  | .decTxRequest64 p => selectsParser P .txRequest64 p
  | .decTxRequest16 p => selectsParser P .txRequest16 p
  | .decUnregistered _ p => payloadFits p
  | .atNd head rest => cursorFits rest && isNd head.message rest
  | .atIsRemote head status rest =>
    cursorFits rest && isRemoteIs head.remote { head.message with commandStatus := status } &&
      decide (head.message.commandStatus = none)
  | .atOther head command status rest =>
    cursorFits rest && !isNd { head.message with command := command, commandStatus := status } rest &&
      !isRemoteIs head.remote { head.message with command := command, commandStatus := status } &&
      decide (head.message.command = none ∧ head.message.commandStatus = none)

end Sys2Proof
end

