-- ==== Sys2Proof/Decode.lean ====
section
/-! DEFINITION. The decoder, total, and after it the encoder: the five formats of
spec/opcode_table.json (spec/30_encoding.md R121, R122, R127, R128). -/

namespace Sys2Proof

open Sys2Proof.Machine

/-- What the class of a received byte depends on beside its value (R121). -/
structure RxContext where
  escapedMode : Bool
  waiting : Bool
  escPend : Bool
deriving DecidableEq, Repr

/-- What the block can fetch as its next instruction, one constructor per format: a transaction of the
command port, a received byte, a message to serialize, the frame bytes from the type tag on (with
RAW_FRAMES), or an AT response parsed up to its branch, with the cursor (R252, R254). -/
inductive Item where
  | command (c : Command)
  | rxByte (ctx : RxContext) (b : Byte)
  | message (m : Message)
  | frame (raw : Bool) (bytes : List Byte)
  | atBranch (remote : Bool) (m : Message) (c : Cursor)
deriving DecidableEq, Repr

/-- The format an item is decoded in. -/
def Item.format : Item → Format
  | .command _ => .hostCommand
  | .rxByte _ _ => .rxByte
  | .message _ => .frameTagEncode
  | .frame _ _ => .frameTagDecode
  | .atBranch _ _ _ => .atMnemonic

/-- Why an item holds no instruction. -/
inductive Reject where
  /-- A message whose type has no ENC row: ENCODE dispatches none (R185). -/
  | noSerializer (tag : Byte)
  /-- No type tag: no completed frame is that short (R322). -/
  | noTag
deriving DecidableEq, Repr

/-! ## The decoder, format by format -/

/-- The command port (R128, R351): the code selects the command, the command reads its own lane. -/
def decodeCommand (c : Command) : Instr :=
  match c.code with
  | 0x01 => .feed c.chunk
  | 0x02 => .encode c.message
  | 0x03 => .nextFrameId
  | 0x04 => .reset c.config
  | code => .illegalCommand code

/-- The class of a received byte (R121). -/
def decodeRxByte (ctx : RxContext) (b : Byte) : Instr :=
  if b = Config.startMarker ∧ (ctx.waiting = true ∨ (ctx.escapedMode = true ∧ ctx.escPend = false)) then
    .rxStart
  else if b = Config.escapeMarker ∧ ctx.escapedMode = true then .rxEsc
  else .rxData b

/-- The row of a message's serializer (R185). -/
def decodeMessage (m : Message) (P : Parameters := Params.default) : Except Reject Instr :=
  match P.serializerType m.type with
  | some .atCommand =>
    .ok (.encAtCommand m.id m.command { m with id := none, command := none })
  | some .atCommandQueueParameterValue =>
    .ok (.encAtCommandQueueParameterValue m.id m.command { m with id := none, command := none })
  | some .remoteAtCommandRequest =>
    .ok (.encRemoteAtCommandRequest m.id m.destination64 m.destination16 m.remoteCommandOptions m.command
      { m with
        id := none, destination64 := none, destination16 := none, remoteCommandOptions := none,
        command := none })
  | some .zigbeeTransmitRequest =>
    .ok (.encZigbeeTransmitRequest m.id m.destination64 m.destination16 m.broadcastRadius m.options
      { m with
        id := none, destination64 := none, destination16 := none, broadcastRadius := none,
        options := none })
  | some .explicitAddressingZigbeeCommandFrame =>
    .ok (.encExplicitAddressingZigbeeCommandFrame m.id m.destination64 m.destination16 m.sourceEndpoint
      m.destinationEndpoint m.clusterId m.profileId m.broadcastRadius m.options
      { m with
        id := none, destination64 := none, destination16 := none, sourceEndpoint := none,
        destinationEndpoint := none, clusterId := none, profileId := none, broadcastRadius := none,
        options := none })
  | some .txRequest64 =>
    .ok (.encTxRequest64 m.id m.destination64 m.options
      { m with id := none, destination64 := none, options := none })
  | some .txRequest16 =>
    .ok (.encTxRequest16 m.id m.destination16 m.options
      { m with id := none, destination16 := none, options := none })
  | some .createSourceRoute =>
    .ok (.encCreateSourceRoute m.id m.destination64 m.destination16
      { m with id := none, destination64 := none, destination16 := none })
  | _ => .error (.noSerializer m.type)

/-- The row of a tagged payload's parser (R231); DEC_UNREGISTERED for a tag that no other row matches, and
for every tag when RAW_FRAMES = 1 (R314). -/
def decodeTagged (raw : Bool) (tag : Byte) (p : List Byte) (P : Parameters := Params.default) : Instr :=
  if raw then .decUnregistered tag p
  else
    match P.parserType tag with
    | some .atCommandResponse => .decAtCommandResponse p
    | some .remoteCommandResponse => .decRemoteCommandResponse p
    | some .modemStatus => .decModemStatus p
    | some .zigbeeTransmitStatus => .decZigbeeTransmitStatus p
    | some .zigbeeReceivePacket => .decZigbeeReceivePacket p
    | some .zigbeeExplicitRx => .decZigbeeExplicitRx p
    | some .zigbeeIoDataSampleRx => .decZigbeeIoDataSampleRx p
    | some .xbeeSensorRead => .decXbeeSensorRead p
    | some .nodeIdentification => .decNodeIdentification p
    | some .routeRecord => .decRouteRecord p
    | some .rxPacket64 => .decRxPacket64 p
    | some .rxPacket16 => .decRxPacket16 p
    | some .rxPacket64Io => .decRxPacket64Io p
    | some .rxPacket16Io => .decRxPacket16Io p
    | some .txStatus => .decTxStatus p
    | some .atCommand => .decAtCommand p
    | some .atCommandQueueParameterValue => .decAtCommandQueueParameterValue p
    | some .remoteAtCommandRequest => .decRemoteAtCommandRequest p
    | some .zigbeeTransmitRequest => .decZigbeeTransmitRequest p
    | some .explicitAddressingZigbeeCommandFrame => .decExplicitAddressingZigbeeCommandFrame p
    | some .txRequest64 => .decTxRequest64 p
    | some .txRequest16 => .decTxRequest16 p
    -- CREATE_SOURCE_ROUTE and the types R124 does not name have no row
    | some .createSourceRoute | some (.unnamed _) | none => .decUnregistered tag p

/-- The AT branch of a response (R127, R252, R254): `ND` with success status and bytes remaining, `IS` on
the remote path, and everything else. -/
def decodeBranch (remote : Bool) (m : Message) (c : Cursor) : Instr :=
  if isNd m c then .atNd ⟨remote, m⟩ c
  else if isRemoteIs remote m then .atIsRemote ⟨remote, { m with commandStatus := none }⟩ m.commandStatus c
  else .atOther ⟨remote, { m with command := none, commandStatus := none }⟩ m.command m.commandStatus c

/-- The decoder: total, and what it does not read as an instruction it rejects by name. -/
def decode (it : Item) (P : Parameters := Params.default) : Except Reject Instr :=
  match it with
  | .command c => .ok (decodeCommand c)
  | .rxByte ctx b => .ok (decodeRxByte ctx b)
  | .message m => decodeMessage m P
  | .frame raw (tag :: p) => .ok (decodeTagged raw tag p P)
  | .frame _ [] => .error .noTag
  | .atBranch remote m c => .ok (decodeBranch remote m c)

/-! ## The encoder -/

/-- The item of a tagged payload. -/
def taggedItem (P : Parameters) (ty : FrameType) (p : List Byte) : Item := .frame false (P.tag ty :: p)

/-- The item an instruction is fetched as, from the same tables (R121, R124, R127, R128). -/
def encode (i : Instr) (P : Parameters := Params.default) : Item :=
  match i with
  | .feed chunk => .command { code := 0x01, chunk := chunk }
  | .encode m => .command { code := 0x02, message := m }
  | .nextFrameId => .command { code := 0x03 }
  | .reset cfg => .command { code := 0x04, config := cfg }
  | .illegalCommand code => .command { code := code }
  | .rxStart => .rxByte { escapedMode := false, waiting := true, escPend := false } Config.startMarker
  | .rxEsc => .rxByte { escapedMode := true, waiting := true, escPend := false } Config.escapeMarker
  | .rxData b => .rxByte { escapedMode := false, waiting := false, escPend := false } b
  | .encAtCommand id command rest =>
    .message { rest with id, command }
  | .encAtCommandQueueParameterValue id command rest =>
    .message { rest with id, command }
  | .encRemoteAtCommandRequest id destination64 destination16 remoteCommandOptions command rest =>
    .message { rest with id, destination64, destination16, remoteCommandOptions, command }
  | .encZigbeeTransmitRequest id destination64 destination16 broadcastRadius options rest =>
    .message { rest with id, destination64, destination16, broadcastRadius, options }
  | .encExplicitAddressingZigbeeCommandFrame id destination64 destination16 sourceEndpoint
    destinationEndpoint clusterId profileId broadcastRadius options rest =>
    .message { rest with
      id, destination64, destination16, sourceEndpoint, destinationEndpoint, clusterId, profileId,
      broadcastRadius, options }
  | .encTxRequest64 id destination64 options rest =>
    .message { rest with id, destination64, options }
  | .encTxRequest16 id destination16 options rest =>
    .message { rest with id, destination16, options }
  | .encCreateSourceRoute id destination64 destination16 rest =>
    .message { rest with id, destination64, destination16 }
  | .decAtCommandResponse p => taggedItem P .atCommandResponse p
  | .decRemoteCommandResponse p => taggedItem P .remoteCommandResponse p
  | .decModemStatus p => taggedItem P .modemStatus p
  | .decZigbeeTransmitStatus p => taggedItem P .zigbeeTransmitStatus p
  | .decZigbeeReceivePacket p => taggedItem P .zigbeeReceivePacket p
  | .decZigbeeExplicitRx p => taggedItem P .zigbeeExplicitRx p
  | .decZigbeeIoDataSampleRx p => taggedItem P .zigbeeIoDataSampleRx p
  | .decXbeeSensorRead p => taggedItem P .xbeeSensorRead p
  | .decNodeIdentification p => taggedItem P .nodeIdentification p
  | .decRouteRecord p => taggedItem P .routeRecord p
  | .decRxPacket64 p => taggedItem P .rxPacket64 p
  | .decRxPacket16 p => taggedItem P .rxPacket16 p
  | .decRxPacket64Io p => taggedItem P .rxPacket64Io p
  | .decRxPacket16Io p => taggedItem P .rxPacket16Io p
  | .decTxStatus p => taggedItem P .txStatus p
  | .decAtCommand p => taggedItem P .atCommand p
  | .decAtCommandQueueParameterValue p => taggedItem P .atCommandQueueParameterValue p
  | .decRemoteAtCommandRequest p => taggedItem P .remoteAtCommandRequest p
  | .decZigbeeTransmitRequest p => taggedItem P .zigbeeTransmitRequest p
  | .decExplicitAddressingZigbeeCommandFrame p => taggedItem P .explicitAddressingZigbeeCommandFrame p
  | .decTxRequest64 p => taggedItem P .txRequest64 p
  | .decTxRequest16 p => taggedItem P .txRequest16 p
  | .decUnregistered tag p => .frame true (tag :: p)
  | .atNd head rest => .atBranch head.remote head.message rest
  | .atIsRemote head status rest =>
    .atBranch head.remote { head.message with commandStatus := status } rest
  | .atOther head command status rest =>
    .atBranch head.remote { head.message with command := command, commandStatus := status } rest

/-! ## Words of the opcode table

A row of spec/opcode_table.json fixes 8 bits (a command code, a received byte, a type tag) or 16 (an AT
mnemonic, whose first byte on the wire is the high one: `ND` is the bytes 4E 44, R127). The five formats
overlap (0x08 is a tag in both directions, 0x01 a command code and a tag), so a bare word is read by the
first row, in the table's order, whose fixed bits it has, rows without fixed bits last (log 18). -/

/-- Operand bytes of zeros. -/
def zeroOperand : List Byte := List.replicate 48 0

/-- A message of a tag whose encoder fields are present and zero (or empty). -/
def zeroMessage (tag : Byte) : Message :=
  { type := tag, id := some 0, command := some ⟨0, 0⟩, commandParameter := some [],
    destination64 := some ⟨0, 0, 0, 0, 0, 0, 0, 0⟩, destination16 := some ⟨0, 0⟩,
    remoteCommandOptions := some 0, broadcastRadius := some 0, options := some 0,
    sourceEndpoint := some 0, destinationEndpoint := some 0, clusterId := some (.number 0),
    profileId := some (.number 0), data := some [], addresses := some [] }

/-- The item of an 8-bit table word. -/
def tableByteItem (b : Byte) : Item :=
  if b = 0x01 ∨ b = 0x02 ∨ b = 0x03 ∨ b = 0x04 then .command { code := b, message := zeroMessage 0 }
  else if b = Config.startMarker ∨ b = Config.escapeMarker then
    .rxByte { escapedMode := true, waiting := true, escPend := false } b
  else if (Params.default.serializerType b).isSome then .message (zeroMessage b)
  else if (Params.default.parserType b).isSome then .frame false (b :: zeroOperand)
  else .command { code := b, message := zeroMessage 0 }

/-- A remote response of zeros with a mnemonic, parsed up to its AT branch (R253). -/
def zeroResponse (command : Ascii2) : Message :=
  { type := Params.tag .remoteCommandResponse, id := some 0, remote64 := some ⟨0, 0, 0, 0, 0, 0, 0, 0⟩,
    remote16 := some ⟨0, 0⟩, command := some command, commandStatus := some 0 }

/-- The item of a table word: an AT mnemonic, in a remote response of zeros, for a 16-bit row; else the
8-bit item. -/
def tableItem (nbits w : Nat) : Item :=
  if nbits = 16 then
    .atBranch true (zeroResponse ⟨BitVec.ofNat 8 (w / 256), BitVec.ofNat 8 w⟩) ⟨14, zeroOperand⟩
  else tableByteItem (BitVec.ofNat 8 w)

/-- The instruction the decoder reads from a word of the opcode table. -/
def decodeTableWord (nbits w : Nat) : Option Instr :=
  match decode (tableItem nbits w) with
  | .ok i => some i
  | .error _ => none

end Sys2Proof
end

