-- ==== Sys2Proof/Machine/State.lean ====
section
/-! DEFINITION. The state of the frame codec block as plain data (spec/10_state.md), its events
(spec/60_exceptions.md R380), and the state at power-up (spec/70_reset_and_hazards.md R420). -/

namespace Sys2Proof.Machine

/-- The contents of one of the block's two address spaces (R80): (index, byte) pairs, indices strictly
rising, no entry equal to what an unlisted index reads as. -/
abbrev Memory := List Host.Cell

/-- DESIGN CHOICE (log 13), unsafe: what an index that nothing has written reads as. R39 and R44 leave
the contents unspecified and say no rule observes them. -/
abbrev Memory.unwritten : Byte := 0x00

/-- The canonical form: equal memories are equal lists. -/
abbrev Memory.wf (m : Memory) : Prop :=
  m.Pairwise (fun c d => c.1 < d.1) ∧ ∀ c ∈ m, c.2 ≠ Memory.unwritten

/-- The events of R380. -/
inductive Event where
  | frameObject (m : Message)
  | frameRaw (frame : List Byte)
  | checksumMismatch (received expected : Byte)
  | capacityExceeded (size : Nat)
  | unsupportedFrameType (tag : Byte)
  | decodeError (reason : ParseFail) (frame : List Byte)
  | missingField (tag : Byte) (name : FieldName)
deriving DecidableEq, Repr

/-- What a command returns to its issuer (R350): ENCODE its bytes, NEXT_FRAME_ID its byte. -/
inductive Result where
  | encoded (bytes : List Byte)
  | frameId (id : Byte)
deriving DecidableEq, Repr

/-- DESIGN CHOICE (log 11), safe: the dispatch of the multiplexer that a step has begun and not finished.
`idle` between steps. -/
inductive Phase where
  | idle
  /-- ENCODE has found a serializer for this message (R185). -/
  | serialize (m : Message)
  /-- The frame in RXBUF is complete and is to be emitted (R314). -/
  | emitFrame
  /-- An AT response, local or remote, parsed up to the cursor, is to take its AT branch (R252, R254). -/
  | atBranch (remote : Bool) (m : Message) (c : Cursor)
deriving DecidableEq, Repr

/-- The state of the block. -/
structure State where
  /-- WAITING (R32). -/
  waiting : Bool
  /-- ESC_PEND (R33). -/
  escPend : Bool
  /-- CNT, a natural number (R34, D15). -/
  cnt : Nat
  /-- LEN (R35). -/
  len : BitVec 16
  /-- SUM (R36). -/
  sum : BitVec 8
  /-- CHK (R37). -/
  chk : BitVec 8
  /-- LAST (R38). -/
  last : BitVec 8
  /-- RXBUF, indices 0..RX_CAP-1 (R39, R81). -/
  rxbuf : Memory
  /-- FID (R43). -/
  fid : BitVec 8
  /-- TXBUF, indices 0..TX_CAP-1 (R44, R82). -/
  txbuf : Memory
  /-- The configuration registers (R45). -/
  cfg : ConfigRegs
  /-- The event output port: every event appended, oldest first (R350, R357). -/
  events : List Event
  /-- The results returned to the issuer, oldest first (R350). DESIGN CHOICE (log 12). -/
  results : List Result
  /-- The command input port: issued and not begun, next first (R350). DESIGN CHOICE (log 10). -/
  cmdq : List Command
  /-- The bytes of the current FEED that no step has taken, next first (R352). DESIGN CHOICE (log 11). -/
  rxq : List Byte
  /-- The multiplexer's pending dispatch. DESIGN CHOICE (log 11). -/
  phase : Phase
deriving DecidableEq, Repr

/-- The reasons for which the machine stops with a fault. The spec gives the block none: no state that a
run reaches raises either of these. -/
inductive Fault where
  /-- Raised by a read of the candidate frame when CNT is past RX_CAP: an access to an index of RXBUF
  that does not exist (R81). Safe: the invariant of R42 excludes it. -/
  | rxbufRange
  /-- Raised by the fetch when a pending dispatch holds no instruction. Safe: no instruction leaves such a
  dispatch behind. -/
  | undecodable (why : Reject)
deriving DecidableEq, Repr

/-- The reasons for which the model refuses an instruction. -/
inductive Refusal where
  /-- Raised by exec's arm of an instruction that has no meaning yet. Safe. No arm answers it. -/
  | notModelled (mnemonic : String)
deriving DecidableEq, Repr

/-- Power-up (R420): the state RESET(CFG_INIT) would give (R52), nothing issued and nothing appended. -/
def State.resetFor (P : Parameters) : State :=
  { waiting := true
    escPend := false
    cnt := 0
    len := 0
    sum := 0
    chk := 0
    last := 0
    rxbuf := []
    fid := 0
    txbuf := []
    cfg := ConfigRegs.ofRecord P.cfgInit
    events := []
    results := []
    cmdq := []
    rxq := []
    phase := .idle }

/-- Power-up at the default parameters. -/
def State.reset : State := State.resetFor Params.default

end Sys2Proof.Machine
end

