-- ==== Sys2Proof/Machine/Ops.lean ====
section
/-! DEFINITION. The named operations over the state: buffer reads and writes (spec/20_memory.md R81,
R82), raising an event (spec/60_exceptions.md), returning a result (spec/44_host_interface.md R350), the
frame-id allocator (spec/41_encoder.md R182). The block has no exception entry and no return from one
(R388, R391): reporting an error is `State.emit`, the one shared operation. -/

namespace Sys2Proof.Machine

/-- The byte at an index of a buffer. -/
def Memory.read : Memory → Nat → Byte
  | [], _ => Memory.unwritten
  | (k, v) :: m, a => if k = a then v else Memory.read m a

/-- `BufWrite` / `MemWrite` (R14, R81), keeping the canonical form. -/
def Memory.write : Memory → Nat → Byte → Memory
  | [], a, b => if b = Memory.unwritten then [] else [(a, b)]
  | (k, v) :: m, a, b =>
    if a < k then if b = Memory.unwritten then (k, v) :: m else (a, b) :: (k, v) :: m
    else if a = k then if b = Memory.unwritten then m else (k, b) :: m
    else (k, v) :: Memory.write m a b

/-- A sequence of bytes written at consecutive indices. -/
def Memory.writeBytes (m : Memory) (a : Nat) : List Byte → Memory
  | [] => m
  | b :: bs => Memory.writeBytes (m.write a b) (a + 1) bs

/-- `BufRead` / `MemRead` of n bytes (R14, R81). -/
def Memory.readBytes (m : Memory) (a : Nat) : Nat → List Byte
  | 0 => []
  | n + 1 => m.read a :: Memory.readBytes m (a + 1) n

/-- The candidate frame `RXBUF[0..CNT-1]` (R314); none where CNT is past the buffer's RX_CAP bytes. -/
def State.frame (s : State) : Option (List Byte) :=
  if s.cnt ≤ s.cfg.rxCap.toNat then some (s.rxbuf.readBytes 0 s.cnt) else none

/-- The conceptual states of the reassembler (R20, R41). -/
inductive ScanState where
  | idle
  | header
  | orphan
  | payload
  | checksum
deriving DecidableEq, Repr

/-- The derived state, a function of the registers only (R41). -/
def State.scan (s : State) : ScanState :=
  if s.waiting then .idle
  else if s.cnt < 3 then .header
  else if s.len = 0 then .orphan
  else if s.cnt < s.len.toNat + 3 then .payload
  else .checksum

/-- `emit E(info)` and the report of a `raise` (R14, R357): the event is appended, nothing else changes. -/
def State.emit (s : State) (e : Event) : State := { s with events := s.events ++ [e] }

/-- The event codes of R380. -/
def Event.code : Event → Byte
  | .frameObject _ => 0x01
  | .frameRaw _ => 0x02
  | .checksumMismatch _ _ => 0x10
  | .capacityExceeded _ => 0x11
  | .unsupportedFrameType _ => 0x12
  | .decodeError _ _ => 0x13
  | .missingField _ _ => 0x14

/-- A command's result goes to its issuer (R350). -/
def State.answer (s : State) (r : Result) : State := { s with results := s.results ++ [r] }

/-- The counter's next value: 255 wraps to 1 (R182). -/
def nextFid (fid : Byte) : Byte := if fid = 0xFF then 1 else fid + 1

/-- `NextFrameId()`: the counter is advanced; its new value is the id (R182). -/
def State.advanceFid (s : State) : State := { s with fid := nextFid s.fid }

/-- RESET(cfg) with a legal record: every register at its reset value (R52, R354). The contents of the two
buffers are unspecified: nothing is listed (DESIGN CHOICE, log 13). -/
def State.resetTo (s : State) (c : ConfigRegs) : State :=
  { s with
    waiting := true
    escPend := false
    cnt := 0
    len := 0
    sum := 0
    chk := 0
    last := 0
    rxbuf := []
    fid := 0
    txbuf := []
    cfg := c
    phase := .idle }

end Sys2Proof.Machine
end

