-- ==== Sys2Proof/Machine/Decoder.lean ====
section
/-! DEFINITION. The decode rows (spec/42_decoder.md, spec/43_reassembler.md R314): each runs its parser on
the payload after type and reports a FrameObject, or a DecodeError with the raw frame. -/

namespace Sys2Proof.Machine

/-- A parser has failed: the event carries the reason and the raw frame (R314, R385). -/
def State.decodeFailed (s : State) (e : ParseFail) : Host.Outcome State Fault Refusal :=
  match s.frame with
  | some f => .next (s.emit (.decodeError e f))
  | none => .fault .rxbufRange

/-- A parser's end, from a cursor: one event (R230, R314). -/
def State.parseFrame (s : State) (x : Parse Message) (c : Cursor) : Host.Outcome State Fault Refusal :=
  match x.runOn c with
  | .ok m => .next (s.emit (.frameObject m))
  | .error e => s.decodeFailed e

/-- A frame with no parser, or any frame when RAW_FRAMES = 1, is reported raw (R314). -/
def State.reportRaw (s : State) : Host.Outcome State Fault Refusal :=
  match s.frame with
  | some f => .next (s.emit (.frameRaw f))
  | none => .fault .rxbufRange

/-- `Decode` with a parser, on the payload after type (R230): a message is reported, an AT response goes on
at its AT branch (R251, R253). -/
def State.parseWith (s : State) (P : Parameters) (x : Parser) (tag : Byte) (p : List Byte) :
    Host.Outcome State Fault Refusal :=
  match x P.toValues s.cfg { type := tag } ⟨0, p⟩ with
  | .ok (.message m, _) => .next (s.emit (.frameObject m))
  | .ok (.atBranch remote m, c) => .next { s with phase := .atBranch remote m c }
  | .error e => s.decodeFailed e

/-- `Decode` of a type's row (R230, R231). -/
def State.parseRow (s : State) (P : Parameters) (ty : FrameType) (p : List Byte) :
    Host.Outcome State Fault Refusal :=
  match P.decReg ty with
  | none => s.reportRaw
  | some x => s.parseWith P x (P.tag ty) p

/-- DEC_AT_COMMAND_RESPONSE (R251). -/
def execDecAtCommandResponse (p : List Byte) (s : State) (P : Parameters := Params.default) :
    Host.Outcome State Fault Refusal :=
  s.parseRow P .atCommandResponse p

/-- DEC_REMOTE_COMMAND_RESPONSE (R253). -/
def execDecRemoteCommandResponse (p : List Byte) (s : State) (P : Parameters := Params.default) :
    Host.Outcome State Fault Refusal :=
  s.parseRow P .remoteCommandResponse p

/-- DEC_MODEM_STATUS (R255). -/
def execDecModemStatus (p : List Byte) (s : State) (P : Parameters := Params.default) :
    Host.Outcome State Fault Refusal :=
  s.parseRow P .modemStatus p

/-- DEC_ZIGBEE_TRANSMIT_STATUS (R256). -/
def execDecZigbeeTransmitStatus (p : List Byte) (s : State) (P : Parameters := Params.default) :
    Host.Outcome State Fault Refusal :=
  s.parseRow P .zigbeeTransmitStatus p

/-- DEC_ZIGBEE_RECEIVE_PACKET (R257). -/
def execDecZigbeeReceivePacket (p : List Byte) (s : State) (P : Parameters := Params.default) :
    Host.Outcome State Fault Refusal :=
  s.parseRow P .zigbeeReceivePacket p

/-- DEC_ZIGBEE_EXPLICIT_RX (R258). -/
def execDecZigbeeExplicitRx (p : List Byte) (s : State) (P : Parameters := Params.default) :
    Host.Outcome State Fault Refusal :=
  s.parseRow P .zigbeeExplicitRx p

/-- DEC_ZIGBEE_IO_DATA_SAMPLE_RX (R259). -/
def execDecZigbeeIoDataSampleRx (p : List Byte) (s : State) (P : Parameters := Params.default) :
    Host.Outcome State Fault Refusal :=
  s.parseRow P .zigbeeIoDataSampleRx p

/-- DEC_XBEE_SENSOR_READ (R269). -/
def execDecXbeeSensorRead (p : List Byte) (s : State) (P : Parameters := Params.default) :
    Host.Outcome State Fault Refusal :=
  s.parseRow P .xbeeSensorRead p

/-- DEC_NODE_IDENTIFICATION (R266). -/
def execDecNodeIdentification (p : List Byte) (s : State) (P : Parameters := Params.default) :
    Host.Outcome State Fault Refusal :=
  s.parseRow P .nodeIdentification p

/-- DEC_ROUTE_RECORD (R276). -/
def execDecRouteRecord (p : List Byte) (s : State) (P : Parameters := Params.default) :
    Host.Outcome State Fault Refusal :=
  s.parseRow P .routeRecord p

/-- DEC_RX_PACKET_64 (R277). -/
def execDecRxPacket64 (p : List Byte) (s : State) (P : Parameters := Params.default) :
    Host.Outcome State Fault Refusal :=
  s.parseRow P .rxPacket64 p

/-- DEC_RX_PACKET_16 (R278). -/
def execDecRxPacket16 (p : List Byte) (s : State) (P : Parameters := Params.default) :
    Host.Outcome State Fault Refusal :=
  s.parseRow P .rxPacket16 p

/-- DEC_RX_PACKET_64_IO: by default the I/O data is captured as `data`, not decoded (R279). -/
def execDecRxPacket64Io (p : List Byte) (s : State) (P : Parameters := Params.default) :
    Host.Outcome State Fault Refusal :=
  s.parseRow P .rxPacket64Io p

/-- DEC_RX_PACKET_16_IO (R280). -/
def execDecRxPacket16Io (p : List Byte) (s : State) (P : Parameters := Params.default) :
    Host.Outcome State Fault Refusal :=
  s.parseRow P .rxPacket16Io p

/-- DEC_TX_STATUS (R282). -/
def execDecTxStatus (p : List Byte) (s : State) (P : Parameters := Params.default) :
    Host.Outcome State Fault Refusal :=
  s.parseRow P .txStatus p

/-- DEC_AT_COMMAND (R283). -/
def execDecAtCommand (p : List Byte) (s : State) (P : Parameters := Params.default) :
    Host.Outcome State Fault Refusal :=
  s.parseRow P .atCommand p

/-- DEC_AT_COMMAND_QUEUE_PARAMETER_VALUE (R283). -/
def execDecAtCommandQueueParameterValue (p : List Byte) (s : State) (P : Parameters := Params.default) :
    Host.Outcome State Fault Refusal :=
  s.parseRow P .atCommandQueueParameterValue p

/-- DEC_REMOTE_AT_COMMAND_REQUEST (R284). -/
def execDecRemoteAtCommandRequest (p : List Byte) (s : State) (P : Parameters := Params.default) :
    Host.Outcome State Fault Refusal :=
  s.parseRow P .remoteAtCommandRequest p

/-- DEC_ZIGBEE_TRANSMIT_REQUEST (R285). -/
def execDecZigbeeTransmitRequest (p : List Byte) (s : State) (P : Parameters := Params.default) :
    Host.Outcome State Fault Refusal :=
  s.parseRow P .zigbeeTransmitRequest p

/-- DEC_EXPLICIT_ADDRESSING_ZIGBEE_COMMAND_FRAME (R286). -/
def execDecExplicitAddressingZigbeeCommandFrame (p : List Byte) (s : State)
    (P : Parameters := Params.default) : Host.Outcome State Fault Refusal :=
  s.parseRow P .explicitAddressingZigbeeCommandFrame p

/-- DEC_TX_REQUEST_64 (R287). -/
def execDecTxRequest64 (p : List Byte) (s : State) (P : Parameters := Params.default) :
    Host.Outcome State Fault Refusal :=
  s.parseRow P .txRequest64 p

/-- DEC_TX_REQUEST_16 (R288). -/
def execDecTxRequest16 (p : List Byte) (s : State) (P : Parameters := Params.default) :
    Host.Outcome State Fault Refusal :=
  s.parseRow P .txRequest16 p

/-- DEC_UNREGISTERED: the raw frame is reported when RAW_FRAMES = 1 or its tag has no parser (R314); a parser
without a row of its own is run here (log 26). The default DEC_REG holds none. -/
def execDecUnregistered (tag : Byte) (p : List Byte) (s : State) (P : Parameters := Params.default) :
    Host.Outcome State Fault Refusal :=
  if s.cfg.rawFrames then s.reportRaw
  else
    match P.rowlessParser tag with
    | some x => s.parseWith P x tag p
    | none => s.reportRaw

end Sys2Proof.Machine
end

