-- ==== Sys2Proof/Machine/AtBranch.lean ====
section
/-! DEFINITION. The AT branches of the two response parsers (spec/42_decoder.md R252, R254): each continues
the response parsed so far from its cursor and reports the frame's one event. -/

namespace Sys2Proof.Machine

/-- AT_ND: a nested node-identification payload (R252, R254, R267). -/
def execAtNd (head : AtHead) (rest : Cursor) (s : State) (P : Parameters := Params.default) :
    Host.Outcome State Fault Refusal :=
  s.parseFrame (branchNd P.toValues head.message) rest

/-- AT_IS_REMOTE: an I/O sample payload whatever the status; other than success it is empty (R254, R265). -/
def execAtIsRemote (head : AtHead) (status : Option Byte) (rest : Cursor) (s : State)
    (P : Parameters := Params.default) : Host.Outcome State Fault Refusal :=
  s.parseFrame
    (readIoSamplePayload P.toValues s.cfg { head.message with commandStatus := status } status) rest

/-- AT_OTHER: opaque command data (R252, R254). -/
def execAtOther (head : AtHead) (command : Option Ascii2) (status : Option Byte) (rest : Cursor)
    (s : State) : Host.Outcome State Fault Refusal :=
  s.parseFrame (branchOther { head.message with command := command, commandStatus := status }) rest

end Sys2Proof.Machine
end

