-- ==== Sys2Proof/Machine/Escape.lean ====
section
/-! DEFINITION. Byte escaping (spec/40_escaping.md). -/

namespace Sys2Proof.Machine

/-- The reserved set (R117). -/
def reserved (b : Byte) (P : Parameters := Params.default) : Bool :=
  b == Config.startMarker || b == Config.escapeMarker || b == P.xon || b == P.xoff

/-- The escape sequence of one byte after the first (R118). -/
def escapeByte (b : Byte) (P : Parameters := Params.default) : List Byte :=
  if reserved b P then [Config.escapeMarker, b ^^^ Config.escapeXor] else [b]

/-- `Escape(s)`: the first byte is copied, never escaped (R160). -/
def escape (s : List Byte) (P : Parameters := Params.default) : List Byte :=
  match s with
  | [] => []
  | b :: bs => b :: bs.flatMap fun c => escapeByte c P

/-- `Unescape` after the first byte (R161). -/
def unescapeTail : List Byte → List Byte
  | [] => []
  | [b] => if b = Config.escapeMarker then [] else [b]
  | b :: c :: r =>
    if b = Config.escapeMarker then (c ^^^ Config.escapeXor) :: unescapeTail r
    else b :: unescapeTail (c :: r)

/-- `Unescape(e)`, the pure inverse (R161). -/
def unescape : List Byte → List Byte
  | [] => []
  | b :: bs => b :: unescapeTail bs

end Sys2Proof.Machine
end

