-- ==== Sys2Proof/Machine/Encoder.lean ====
section
/-! DEFINITION. The frame encoder (spec/41_encoder.md): the ENC rows, each over one shared operation,
`State.serialize` (R181), with `State.assignId` (R183) and `State.transmit` (R181 from the length on). -/

namespace Sys2Proof.Machine

/-- The unescaped frame of frame data: start marker, big-endian length, data, checksum (R110, R181). -/
def frameOf (d : List Byte) : List Byte :=
  Config.startMarker :: (be16bytes (BitVec.ofNat 16 d.length) ++ d ++ [checksum d])

/-- The frame as it leaves the block: escaped iff API_MODE = 2 (R190). -/
def wireFrame (c : ConfigRegs) (d : List Byte) (P : Parameters := Params.default) : List Byte :=
  if c.escapedMode then escape (frameOf d) P else frameOf d

/-- `AssignId` of a type that carries a frame id: 0 for CREATE_SOURCE_ROUTE (R184); else the given id
unchanged; else the counter is advanced (R183). -/
def State.assignId (s : State) (ty : FrameType) (id : Option Byte) : Byte × State :=
  if ty = .createSourceRoute then (0, s)
  else
    match id with
    | some i => (i, s)
    | none => (s.advanceFid.fid, s.advanceFid)

/-- Length check, checksum, header, escaping, result (R181, R187 to R190, R194). The frame is built in
TXBUF: data from index 3, checksum, then the header (R82). -/
def State.transmit (s : State) (d : List Byte) (P : Parameters := Params.default) : State :=
  if 65535 < d.length ∨ s.cfg.txCap.toNat < d.length + 4 then
    s.emit (.capacityExceeded (d.length + 4))
  else if s.cfg.escapedMode ∧ s.cfg.txCap.toNat < (escape (frameOf d) P).length then
    s.emit (.capacityExceeded (escape (frameOf d) P).length)
  else
    State.answer
      { s with
        txbuf := ((s.txbuf.writeBytes 3 d).writeBytes (3 + d.length) [checksum d]).writeBytes 0
          (Config.startMarker :: be16bytes (BitVec.ofNat 16 d.length)) }
      (.encoded (wireFrame s.cfg d P))

/-- The type byte, the assigned id if the type carries one, the fields (R181, R186). -/
def State.sendFields (s : State) (P : Parameters) (ty : FrameType) (ser : Serializer) (m : Message) :
    State :=
  if ser.hasId then
    (s.assignId ty m.id).2.transmit (m.type :: (s.assignId ty m.id).1 :: ser.fields P.toValues m) P
  else s.transmit (m.type :: ser.fields P.toValues m) P

/-- `Encode` with the serializer of a type (R181): the first required field that is absent is reported
before any id is allocated (R193). A message outside the layout's ranges does not pass the host's conversion,
so nothing happens (D35, log 17). -/
def State.serialize (s : State) (P : Parameters) (ty : FrameType) (m : Message) :
    Host.Outcome State Fault Refusal :=
  match P.encReg ty with
  | none => .next (s.emit (.unsupportedFrameType m.type))
  | some ser =>
    if ser.admits m then
      match ser.required.find? fun n => lacks m n with
      | some n => .next (s.emit (.missingField m.type n))
      | none => .next (s.sendFields P ty ser m)
    else .next s

/-- ENC_AT_COMMAND (R201). -/
def execEncAtCommand (id : Option Byte) (command : Option Ascii2) (rest : Message) (s : State)
    (P : Parameters := Params.default) : Host.Outcome State Fault Refusal :=
  s.serialize P .atCommand { rest with id, command }

/-- ENC_AT_COMMAND_QUEUE_PARAMETER_VALUE (R202). -/
def execEncAtCommandQueueParameterValue (id : Option Byte) (command : Option Ascii2) (rest : Message)
    (s : State) (P : Parameters := Params.default) : Host.Outcome State Fault Refusal :=
  s.serialize P .atCommandQueueParameterValue { rest with id, command }

/-- ENC_REMOTE_AT_COMMAND_REQUEST (R203). -/
def execEncRemoteAtCommandRequest (id : Option Byte) (destination64 : Option Addr64)
    (destination16 : Option Addr16) (remoteCommandOptions : Option Byte) (command : Option Ascii2)
    (rest : Message) (s : State) (P : Parameters := Params.default) : Host.Outcome State Fault Refusal :=
  s.serialize P .remoteAtCommandRequest { rest with
    id, destination64, destination16, remoteCommandOptions, command }

/-- ENC_ZIGBEE_TRANSMIT_REQUEST (R204). -/
def execEncZigbeeTransmitRequest (id : Option Byte) (destination64 : Option Addr64)
    (destination16 : Option Addr16) (broadcastRadius options : Option Byte) (rest : Message) (s : State)
    (P : Parameters := Params.default) : Host.Outcome State Fault Refusal :=
  s.serialize P .zigbeeTransmitRequest { rest with
    id, destination64, destination16, broadcastRadius, options }

/-- ENC_EXPLICIT_ADDRESSING_ZIGBEE_COMMAND_FRAME (R205). -/
def execEncExplicitAddressingZigbeeCommandFrame (id : Option Byte) (destination64 : Option Addr64)
    (destination16 : Option Addr16) (sourceEndpoint destinationEndpoint : Option Byte)
    (clusterId profileId : Option Id16) (broadcastRadius options : Option Byte) (rest : Message) (s : State)
    (P : Parameters := Params.default) : Host.Outcome State Fault Refusal :=
  s.serialize P .explicitAddressingZigbeeCommandFrame { rest with
    id, destination64, destination16, sourceEndpoint, destinationEndpoint, clusterId, profileId,
    broadcastRadius, options }

/-- ENC_TX_REQUEST_64 (R206). -/
def execEncTxRequest64 (id : Option Byte) (destination64 : Option Addr64) (options : Option Byte)
    (rest : Message) (s : State) (P : Parameters := Params.default) : Host.Outcome State Fault Refusal :=
  s.serialize P .txRequest64 { rest with id, destination64, options }

/-- ENC_TX_REQUEST_16 (R207). -/
def execEncTxRequest16 (id : Option Byte) (destination16 : Option Addr16) (options : Option Byte)
    (rest : Message) (s : State) (P : Parameters := Params.default) : Host.Outcome State Fault Refusal :=
  s.serialize P .txRequest16 { rest with id, destination16, options }

/-- ENC_CREATE_SOURCE_ROUTE (R208). -/
def execEncCreateSourceRoute (id : Option Byte) (destination64 : Option Addr64)
    (destination16 : Option Addr16) (rest : Message) (s : State) (P : Parameters := Params.default) :
    Host.Outcome State Fault Refusal :=
  s.serialize P .createSourceRoute { rest with id, destination64, destination16 }

end Sys2Proof.Machine
end

