-- ==== Sys2Proof/Machine/HostPort.lean ====
section
/-! DEFINITION. The host commands (spec/44_host_interface.md). -/

namespace Sys2Proof.Machine

/-- FEED(c): the chunk goes to the scanner, which takes one byte a step (R352, D1). -/
def execFeed (chunk : List Byte) (s : State) : Host.Outcome State Fault Refusal :=
  .next { s with rxq := s.rxq ++ chunk }

/-- ENCODE(m): dispatch by type, to the type's row or, where the table has none, here (log 26); a type with no
serializer is reported before any field is examined (R181, R185, R355). -/
def execEncode (m : Message) (s : State) (P : Parameters := Params.default) :
    Host.Outcome State Fault Refusal :=
  match P.serializerType m.type with
  | some ty =>
    if encRows.contains ty then .next { s with phase := .serialize m } else s.serialize P ty m
  | none => .next (s.emit (.unsupportedFrameType m.type))

/-- NEXT_FRAME_ID(): advance the counter and return it (R356). -/
def execNextFrameId (s : State) : Host.Outcome State Fault Refusal :=
  .next (s.advanceFid.answer (.frameId s.advanceFid.fid))

/-- RESET(cfg): all state to its reset values, or, for an illegal record, no state change (R354, R360). -/
def execReset (cfg : ConfigRecord) (s : State) : Host.Outcome State Fault Refusal :=
  if legalConfig cfg then .next (s.resetTo (ConfigRegs.ofRecord cfg)) else .next s

/-- A command with any other code: no state change, no event, no result (R351, R360). -/
def execIllegalCommand (_code : Byte) (s : State) : Host.Outcome State Fault Refusal := .next s

end Sys2Proof.Machine
end

