-- ==== Sys2Proof/Machine/Receive.lean ====
section
/-! DEFINITION. The reassembler's step by class of received byte (spec/43_reassembler.md R301, with the
class selected by the decoder, R121). -/

namespace Sys2Proof.Machine

/-- Start detection (R303). The buffer's old contents stay; no rule observes them (log 13). -/
def State.startFrame (s : State) : State :=
  { s with cnt := 0, len := 0, sum := 0, chk := 0, escPend := false, waiting := false }

/-- Completion: the mismatch is reported first, the frame is handed to the multiplexer, the machine is
Idle again (R313 to R315). -/
def State.complete (s : State) (chk : Byte) : State :=
  let t := if checksumValid s.sum chk then s
    else s.emit (.checksumMismatch chk (expectedChecksum s.sum))
  { t with chk := chk, waiting := true, len := 0, phase := .emitFrame }

/-- The byte just written, interpreted by its offset (R308 to R313, R316). -/
def State.interpret (s : State) (v : Byte) : State :=
  if s.cnt = 1 then s
  else if s.cnt = 2 then { s with len := v.setWidth 16 <<< 8 }
  else if s.cnt = 3 then { s with len := s.len + v.setWidth 16 }
  else if s.cnt < s.len.toNat + 4 then { s with sum := s.sum + v }
  else if 0 < s.len.toNat ∧ s.cnt = s.len.toNat + 4 then s.complete v
  else { s with chk := v }

/-- Append, then interpret; with the buffer full, the capacity fault (R306, R307). -/
def State.append (s : State) (v : Byte) : State :=
  if s.cnt < s.cfg.rxCap.toNat then
    State.interpret { s with rxbuf := s.rxbuf.write s.cnt v, cnt := s.cnt + 1 } v
  else
    State.emit { s with waiting := true } (.capacityExceeded s.cfg.rxCap.toNat)

/-- The received byte after the unescape of R305. -/
def State.unescaped (s : State) (b : Byte) : Byte := if s.escPend then b ^^^ Config.escapeXor else b

/-- RX_START: start detection, then the marker is written at index 0 (R303, R308). -/
def execRxStart (s : State) : Host.Outcome State Fault Refusal :=
  .next (State.append { s.startFrame with last := Config.startMarker } Config.startMarker)

/-- RX_ESC: the escape is pending, the byte is consumed (R304). -/
def execRxEsc (s : State) : Host.Outcome State Fault Refusal :=
  .next { s with last := Config.escapeMarker, escPend := true }

/-- RX_DATA: unescape, then skip in Idle, else append (R302, R305, R306). -/
def execRxData (b : Byte) (s : State) : Host.Outcome State Fault Refusal :=
  let t : State := { s with last := s.unescaped b, escPend := false }
  if s.waiting then .next t else .next (t.append (s.unescaped b))

end Sys2Proof.Machine
end

