-- ==== Sys2Proof/Machine/Dispatch.lean ====
section
/-! DEFINITION. One arm per row of spec/opcode_table.json, in the table's order. -/

namespace Sys2Proof.Machine

def exec (i : Instr) (s : State) : Host.Outcome State Fault Refusal :=
  match i with
  | .feed chunk => Sys2Proof.Machine.execFeed chunk s
  | .encode m => Sys2Proof.Machine.execEncode m s
  | .nextFrameId => Sys2Proof.Machine.execNextFrameId s
  | .reset cfg => Sys2Proof.Machine.execReset cfg s
  | .illegalCommand code => Sys2Proof.Machine.execIllegalCommand code s
  | .rxStart => Sys2Proof.Machine.execRxStart s
  | .rxEsc => Sys2Proof.Machine.execRxEsc s
  | .rxData b => Sys2Proof.Machine.execRxData b s
  | .encAtCommand id command rest => Sys2Proof.Machine.execEncAtCommand id command rest s
  | .encAtCommandQueueParameterValue id command rest => Sys2Proof.Machine.execEncAtCommandQueueParameterValue id command rest s
  | .encRemoteAtCommandRequest id destination64 destination16 remoteCommandOptions command rest => Sys2Proof.Machine.execEncRemoteAtCommandRequest id destination64 destination16 remoteCommandOptions command rest s
  | .encZigbeeTransmitRequest id destination64 destination16 broadcastRadius options rest => Sys2Proof.Machine.execEncZigbeeTransmitRequest id destination64 destination16 broadcastRadius options rest s
  | .encExplicitAddressingZigbeeCommandFrame id destination64 destination16 sourceEndpoint destinationEndpoint clusterId profileId broadcastRadius options rest => Sys2Proof.Machine.execEncExplicitAddressingZigbeeCommandFrame id destination64 destination16 sourceEndpoint destinationEndpoint clusterId profileId broadcastRadius options rest s
  | .encTxRequest64 id destination64 options rest => Sys2Proof.Machine.execEncTxRequest64 id destination64 options rest s
  | .encTxRequest16 id destination16 options rest => Sys2Proof.Machine.execEncTxRequest16 id destination16 options rest s
  | .encCreateSourceRoute id destination64 destination16 rest => Sys2Proof.Machine.execEncCreateSourceRoute id destination64 destination16 rest s
  | .decAtCommandResponse p => Sys2Proof.Machine.execDecAtCommandResponse p s
  | .decRemoteCommandResponse p => Sys2Proof.Machine.execDecRemoteCommandResponse p s
  | .decModemStatus p => Sys2Proof.Machine.execDecModemStatus p s
  | .decZigbeeTransmitStatus p => Sys2Proof.Machine.execDecZigbeeTransmitStatus p s
  | .decZigbeeReceivePacket p => Sys2Proof.Machine.execDecZigbeeReceivePacket p s
  | .decZigbeeExplicitRx p => Sys2Proof.Machine.execDecZigbeeExplicitRx p s
  | .decZigbeeIoDataSampleRx p => Sys2Proof.Machine.execDecZigbeeIoDataSampleRx p s
  | .decXbeeSensorRead p => Sys2Proof.Machine.execDecXbeeSensorRead p s
  | .decNodeIdentification p => Sys2Proof.Machine.execDecNodeIdentification p s
  | .decRouteRecord p => Sys2Proof.Machine.execDecRouteRecord p s
  | .decRxPacket64 p => Sys2Proof.Machine.execDecRxPacket64 p s
  | .decRxPacket16 p => Sys2Proof.Machine.execDecRxPacket16 p s
  | .decRxPacket64Io p => Sys2Proof.Machine.execDecRxPacket64Io p s
  | .decRxPacket16Io p => Sys2Proof.Machine.execDecRxPacket16Io p s
  | .decTxStatus p => Sys2Proof.Machine.execDecTxStatus p s
  | .decAtCommand p => Sys2Proof.Machine.execDecAtCommand p s
  | .decAtCommandQueueParameterValue p => Sys2Proof.Machine.execDecAtCommandQueueParameterValue p s
  | .decRemoteAtCommandRequest p => Sys2Proof.Machine.execDecRemoteAtCommandRequest p s
  | .decZigbeeTransmitRequest p => Sys2Proof.Machine.execDecZigbeeTransmitRequest p s
  | .decExplicitAddressingZigbeeCommandFrame p => Sys2Proof.Machine.execDecExplicitAddressingZigbeeCommandFrame p s
  | .decTxRequest64 p => Sys2Proof.Machine.execDecTxRequest64 p s
  | .decTxRequest16 p => Sys2Proof.Machine.execDecTxRequest16 p s
  | .decUnregistered tag p => Sys2Proof.Machine.execDecUnregistered tag p s
  | .atNd head rest => Sys2Proof.Machine.execAtNd head rest s
  | .atIsRemote head status rest => Sys2Proof.Machine.execAtIsRemote head status rest s
  | .atOther head command status rest => Sys2Proof.Machine.execAtOther head command status rest s

end Sys2Proof.Machine
end

