-- ==== Sys2Proof/Machine/Fetch.lean ====
section
/-! DEFINITION. Where the block fetches its next instruction, and what is taken with it: a pending dispatch
first, then a byte of the current FEED, then the next transaction of the command port (spec/44 R350,
R358; log 10, log 11). The block has no program counter (spec/10_state.md R30). -/

namespace Sys2Proof.Machine

/-- What the sequencer finds: an item, nothing to do, or a read past RXBUF. -/
inductive Fetched where
  | item (it : Item)
  | nothing
  | outOfRange
deriving DecidableEq, Repr

/-- The context that classifies a received byte (R121). -/
def State.rxContext (s : State) : RxContext :=
  { escapedMode := s.cfg.escapedMode, waiting := s.waiting, escPend := s.escPend }

/-- The frame from the type tag up to and without the checksum (R230, R314). -/
def taggedBytes (frame : List Byte) : List Byte := (frame.drop 3).dropLast

/-- The item fetched next. -/
def State.fetch (s : State) : Fetched :=
  match s.phase with
  | .serialize m => .item (.message m)
  | .emitFrame =>
    match s.frame with
    | some f => .item (.frame s.cfg.rawFrames (taggedBytes f))
    | none => .outOfRange
  | .atBranch remote m c => .item (.atBranch remote m c)
  | .idle =>
    match s.rxq with
    | b :: _ => .item (.rxByte s.rxContext b)
    | [] =>
      match s.cmdq with
      | c :: _ => .item (.command c)
      | [] => .nothing

/-- The item fetched is taken: a byte is read exactly once (R83), a transaction begun once. -/
def State.consume (s : State) : State :=
  match s.phase with
  | .idle =>
    match s.rxq with
    | _ :: bs => { s with rxq := bs }
    | [] => { s with cmdq := s.cmdq.tail }
  | _ => { s with phase := .idle }

/-- The state with an item where the next step fetches, and with the mode, flags and frame its fetch
needs. -/
def State.place (s : State) : Item → State
  | .command c => { s with phase := .idle, rxq := [], cmdq := c :: s.cmdq }
  | .rxByte ctx b =>
    { s with
      phase := .idle
      rxq := b :: s.rxq
      waiting := ctx.waiting
      escPend := ctx.escPend
      cfg := { s.cfg with apiMode := if ctx.escapedMode then 2 else 1 } }
  | .message m => { s with phase := .serialize m }
  | .frame raw bytes =>
    { s with
      phase := .emitFrame
      cnt := bytes.length + 4
      rxbuf := s.rxbuf.writeBytes 0
        ([Config.startMarker] ++ be16bytes (BitVec.ofNat 16 bytes.length) ++ bytes ++ [checksum bytes])
      cfg := { s.cfg with rawFrames := raw } }
  | .atBranch remote m c => { s with phase := .atBranch remote m c }

end Sys2Proof.Machine
end

