-- ==== Sys2Proof/Machine/Sequencer.lean ====
section
/-! DEFINITION. The step of the block over a decoder and the meanings it dispatches to: one transaction
begun, or one received byte processed (spec/00_scope.md R19, spec/20_memory.md R90), with the dispatches it
leads to. -/

namespace Sys2Proof.Machine

/-- One instruction: fetched, decoded, taken and executed. With nothing issued the block waits
(DESIGN CHOICE, log 23). -/
def microWith (dec : Item → Except Reject Instr) (ex : Instr → State → Host.Outcome State Fault Refusal)
    (s : State) : Host.Outcome State Fault Refusal :=
  match s.fetch with
  | .nothing => .next s
  | .outOfRange => .fault .rxbufRange
  | .item it =>
    match dec it with
    | .ok i => ex i s.consume
    | .error e => .fault (.undecodable e)

/-- The dispatches an instruction leaves pending are finished in the same step, so that no other command
sees the block between them (R90): at most `n` of them. -/
def settleWith (dec : Item → Except Reject Instr)
    (ex : Instr → State → Host.Outcome State Fault Refusal) :
    Nat → Host.Outcome State Fault Refusal → Host.Outcome State Fault Refusal
  | 0, o => o
  | n + 1, .next s =>
    if s.phase = .idle then .next s else settleWith dec ex n (microWith dec ex s)
  | _ + 1, .fault r => .fault r
  | _ + 1, .refused r => .refused r

/-- One step. A received byte leads to at most two dispatches, a frame's and its AT branch's; ENCODE to one. -/
def stepWith (dec : Item → Except Reject Instr) (ex : Instr → State → Host.Outcome State Fault Refusal)
    (s : State) : Host.Outcome State Fault Refusal :=
  settleWith dec ex 2 (microWith dec ex s)

end Sys2Proof.Machine
end

