-- ==== Sys2Proof/Machine/Step.lean ====
section
/-! DEFINITION. The step of the machine the host runs: the sequencer over `decode` and `exec`. -/

namespace Sys2Proof.Machine

/-- One instruction of the machine. -/
def micro (s : State) : Host.Outcome State Fault Refusal := microWith (fun it => decode it) exec s

/-- The pending dispatches of the machine, at most `n` of them. -/
def settle (n : Nat) (o : Host.Outcome State Fault Refusal) : Host.Outcome State Fault Refusal :=
  settleWith (fun it => decode it) exec n o

/-- One step of the machine. -/
def step (s : State) : Host.Outcome State Fault Refusal := stepWith (fun it => decode it) exec s

/-- The state with a word of the opcode table where step fetches its next instruction (log 18). -/
def State.withFetchWord (s : State) (nbits w : Nat) : State := s.place (tableItem nbits w)

end Sys2Proof.Machine
end

