-- ==== Sys2Proof/Machine/Parametric.lean ====
section
/-! DEFINITION. The machine at any parameters (spec/00_scope.md R6, R9): the same meanings, decoder and
sequencer, with the parameters as an argument. At `Params.default` it is the machine of `exec` and `step`
(Sys2Proof/Laws/Parametric.lean). -/

namespace Sys2Proof.Machine

/-- The dispatch of `exec`, at the parameters `P`. -/
def execFor (P : Parameters) (i : Instr) (s : State) : Host.Outcome State Fault Refusal :=
  match i with
  | .feed chunk => execFeed chunk s
  | .encode m => execEncode m s P
  | .nextFrameId => execNextFrameId s
  | .reset cfg => execReset cfg s
  | .illegalCommand code => execIllegalCommand code s
  | .rxStart => execRxStart s
  | .rxEsc => execRxEsc s
  | .rxData b => execRxData b s
  | .encAtCommand id command rest =>
    execEncAtCommand id command rest s P
  | .encAtCommandQueueParameterValue id command rest =>
    execEncAtCommandQueueParameterValue id command rest s P
  | .encRemoteAtCommandRequest id destination64 destination16 remoteCommandOptions command rest =>
    execEncRemoteAtCommandRequest id destination64 destination16 remoteCommandOptions command rest s P
  | .encZigbeeTransmitRequest id destination64 destination16 broadcastRadius options rest =>
    execEncZigbeeTransmitRequest id destination64 destination16 broadcastRadius options rest s P
  | .encExplicitAddressingZigbeeCommandFrame id destination64 destination16 sourceEndpoint
    destinationEndpoint clusterId profileId broadcastRadius options rest =>
    execEncExplicitAddressingZigbeeCommandFrame id destination64 destination16 sourceEndpoint
      destinationEndpoint clusterId profileId broadcastRadius options rest s P
  | .encTxRequest64 id destination64 options rest =>
    execEncTxRequest64 id destination64 options rest s P
  | .encTxRequest16 id destination16 options rest =>
    execEncTxRequest16 id destination16 options rest s P
  | .encCreateSourceRoute id destination64 destination16 rest =>
    execEncCreateSourceRoute id destination64 destination16 rest s P
  | .decAtCommandResponse p => execDecAtCommandResponse p s P
  | .decRemoteCommandResponse p => execDecRemoteCommandResponse p s P
  | .decModemStatus p => execDecModemStatus p s P
  | .decZigbeeTransmitStatus p => execDecZigbeeTransmitStatus p s P
  | .decZigbeeReceivePacket p => execDecZigbeeReceivePacket p s P
  | .decZigbeeExplicitRx p => execDecZigbeeExplicitRx p s P
  | .decZigbeeIoDataSampleRx p => execDecZigbeeIoDataSampleRx p s P
  | .decXbeeSensorRead p => execDecXbeeSensorRead p s P
  | .decNodeIdentification p => execDecNodeIdentification p s P
  | .decRouteRecord p => execDecRouteRecord p s P
  | .decRxPacket64 p => execDecRxPacket64 p s P
  | .decRxPacket16 p => execDecRxPacket16 p s P
  | .decRxPacket64Io p => execDecRxPacket64Io p s P
  | .decRxPacket16Io p => execDecRxPacket16Io p s P
  | .decTxStatus p => execDecTxStatus p s P
  | .decAtCommand p => execDecAtCommand p s P
  | .decAtCommandQueueParameterValue p => execDecAtCommandQueueParameterValue p s P
  | .decRemoteAtCommandRequest p => execDecRemoteAtCommandRequest p s P
  | .decZigbeeTransmitRequest p => execDecZigbeeTransmitRequest p s P
  | .decExplicitAddressingZigbeeCommandFrame p => execDecExplicitAddressingZigbeeCommandFrame p s P
  | .decTxRequest64 p => execDecTxRequest64 p s P
  | .decTxRequest16 p => execDecTxRequest16 p s P
  | .decUnregistered tag p => execDecUnregistered tag p s P
  | .atNd head rest => execAtNd head rest s P
  | .atIsRemote head status rest => execAtIsRemote head status rest s P
  | .atOther head command status rest => execAtOther head command status rest s

/-- One step of the machine at the parameters `P`. -/
def stepFor (P : Parameters) (s : State) : Host.Outcome State Fault Refusal :=
  stepWith (fun it => decode it P) (execFor P) s

/-- The machine at the parameters `P`, behind the host's interface. -/
def coreFor (P : Parameters) : Host.Core :=
  { State := State, Fault := Fault, Refusal := Refusal, step := stepFor P, reset := State.resetFor P }

end Sys2Proof.Machine
end

