-- ==== Sys2Proof/Machine/Reference.lean ====
section
/-! DEFINITION. The spec's own atomic operations, transcribed: Decode (spec/42_decoder.md R230) and RxStep
(spec/43_reassembler.md R301, R314). `exec` and `step` do not use them: statements compare the machine with
them. -/

namespace Sys2Proof.Machine

/-- `ATBranchLocal` (R252). -/
def refAtBranchLocal (V : Values) (m : Message) : Parse Message := do
  let n ← remaining
  if m.command = some Ascii2.nd ∧ m.commandStatus = some 0x00 ∧ 0 < n then branchNd V m
  else branchOther m

/-- `ATBranchRemote` (R254). -/
def refAtBranchRemote (V : Values) (c : ConfigRegs) (m : Message) : Parse Message := do
  let n ← remaining
  if m.command = some Ascii2.nd ∧ m.commandStatus = some 0x00 ∧ 0 < n then branchNd V m
  else if m.command = some Ascii2.is then readIoSamplePayload V c m m.commandStatus
  else branchOther m

/-- The rest of a parser after its fixed fields: nothing, or its AT branch (R251, R253). -/
def refEnd (V : Values) (c : ConfigRegs) : ParseEnd → Parse Message
  | .message m => pure m
  | .atBranch false m => refAtBranchLocal V m
  | .atBranch true m => refAtBranchRemote V c m

/-- `Decode(tag, p)` (R230): none for a tag with no parser, else a message or the reason of the failure. -/
def refDecode (c : ConfigRegs) (tag : Byte) (p : List Byte) (P : Parameters := Params.default) :
    Option (Except ParseFail Message) :=
  ((P.parserType tag).bind P.decReg).map fun x =>
    Parse.runOn (x P.toValues c { type := tag } >>= refEnd P.toValues c) ⟨0, p⟩

/-- The one frame-level event of `EmitFrame(f)` (R314). -/
def refFrameEvent (c : ConfigRegs) (f : List Byte) (P : Parameters := Params.default) : Event :=
  if c.rawFrames then .frameRaw f
  else
    match refDecode c (f.getD 3 0) ((f.drop 4).dropLast) P with
    | none => .frameRaw f
    | some (.ok m) => .frameObject m
    | some (.error e) => .decodeError e f

/-- Sub-step (6) of `RxStep`: the byte just written, by its offset (R308 to R316). -/
def refInterpret (v : Byte) (s : State) (P : Parameters := Params.default) : State :=
  if s.cnt = 1 then s
  else if s.cnt = 2 then { s with len := v.setWidth 16 <<< 8 }
  else if s.cnt = 3 then { s with len := s.len + v.setWidth 16 }
  else if s.cnt < s.len.toNat + 4 then { s with sum := s.sum + v }
  else
    let s := { s with chk := v }
    if 0 < s.len.toNat ∧ s.cnt = s.len.toNat + 4 then
      let s := if s.chk ≠ 0xFF - s.sum then s.emit (.checksumMismatch s.chk (0xFF - s.sum)) else s
      let s := s.emit (refFrameEvent s.cfg (s.rxbuf.readBytes 0 s.cnt) P)
      { s with waiting := true, len := 0 }
    else s

/-- Sub-steps (5) and (6) of `RxStep` (R306, R307). -/
def refAppend (v : Byte) (s : State) (P : Parameters := Params.default) : State :=
  if s.cnt < s.cfg.rxCap.toNat then
    refInterpret v { s with rxbuf := s.rxbuf.write s.cnt v, cnt := s.cnt + 1 } P
  else { s with waiting := true, events := s.events ++ [.capacityExceeded s.cfg.rxCap.toNat] }

/-- Sub-step (1) of `RxStep`: start detection (R303). -/
def refStart (b : Byte) (s : State) : State :=
  if b = 0x7E ∧ (s.waiting = true ∨ (s.cfg.apiMode = 2 ∧ s.escPend = false)) then
    { s with cnt := 0, len := 0, sum := 0, chk := 0, escPend := false, waiting := false }
  else s

/-- Sub-steps (3) to (6) of `RxStep`: unescape, and skip or append (R305, R302). -/
def refDeliver (b : Byte) (s : State) (P : Parameters := Params.default) : State :=
  let v := if s.escPend then b ^^^ 0x20 else b
  let s := if s.escPend then { s with escPend := false, last := v } else s
  if s.waiting then s else refAppend v s P

/-- `RxStep(b)`, sub-step by sub-step in the order of R301, on the state without its input byte. -/
def refRxStep (b : Byte) (s : State) (P : Parameters := Params.default) : State :=
  let s := { refStart b s with last := b }
  if s.cfg.apiMode = 2 ∧ b = 0x7D then { s with escPend := true } else refDeliver b s P

end Sys2Proof.Machine
end

