-- ==== Sys2Proof/Safety.lean ====
section
/-! DEFINITION. The terms the statements use: the invariants of spec/10_state.md R42, what a sent frame is,
and which parts of the state an instruction may change. -/

namespace Sys2Proof.Machine

/-- `k` steps of the machine the host sees. -/
def run (k : Nat) (s : State) : Host.Outcome State Fault Refusal := Host.Core.run Sys2Proof.core k s

/-- Both buffers are in canonical form. -/
abbrev State.memoryWf (s : State) : Prop := s.rxbuf.wf ∧ s.txbuf.wf

/-- The invariants between steps (R42 (a) to (e)), with what makes them inductive: the length's high byte
while only it has been received, and an empty sum before the first data byte. -/
structure ScannerInv (s : State) : Prop where
  /-- R42 (a). -/
  counted : s.waiting = false → 1 ≤ s.cnt ∧ s.cnt ≤ s.cfg.rxCap.toNat ∧ s.rxbuf.read 0 = 0x7E
  /-- R309: after offset 2 the low byte of LEN is 0. -/
  lengthHigh : s.waiting = false → s.cnt = 2 → s.len = be16 (s.rxbuf.read 1) 0
  /-- R42 (b). -/
  length : s.waiting = false → 3 ≤ s.cnt → s.len = be16 (s.rxbuf.read 1) (s.rxbuf.read 2)
  /-- R303: the sum is 0 until offset 4. -/
  sumStart : s.waiting = false → s.cnt ≤ 3 → s.sum = 0
  /-- R42 (c). -/
  sum : s.waiting = false → 4 ≤ s.cnt → s.cnt ≤ s.len.toNat + 3 →
    s.sum = sumBytes (s.rxbuf.readBytes 3 (s.cnt - 3))
  /-- R42 (d). -/
  bounded : s.waiting = false → 0 < s.len.toNat → s.cnt ≤ s.len.toNat + 3
  /-- R42 (e). -/
  unescapedMode : s.cfg.apiMode = 1 → s.escPend = false

/-- The invariant of every reachable state: legal configuration, canonical memories, no dispatch pending
between steps, and R42. -/
structure Inv (s : State) : Prop where
  legalMode : s.cfg.apiMode = 1 ∨ s.cfg.apiMode = 2
  legalRxCap : 5 ≤ s.cfg.rxCap.toNat ∧ s.cfg.rxCap.toNat ≤ 65539
  legalTxCap : 5 ≤ s.cfg.txCap.toNat
  memory : s.memoryWf
  settled : s.phase = .idle
  scanner : ScannerInv s

/-- The registers and the buffer of the reassembler (R32 to R39) are the same. -/
def SameScanner (s t : State) : Prop :=
  t.waiting = s.waiting ∧ t.escPend = s.escPend ∧ t.cnt = s.cnt ∧ t.len = s.len ∧ t.sum = s.sum ∧
    t.chk = s.chk ∧ t.last = s.last ∧ t.rxbuf = s.rxbuf

/-- The encoder's state (R43, R44) and the results are the same. -/
def SameEncoder (s t : State) : Prop :=
  t.fid = s.fid ∧ t.txbuf = s.txbuf ∧ t.results = s.results

/-- The unescaped frame of frame data, written out (R110). -/
def frameBytes (d : List Byte) : List Byte :=
  [0x7E, BitVec.ofNat 8 (d.length / 256), BitVec.ofNat 8 d.length] ++ d ++ [checksum d]

/-- The reserved bytes, written out: the two markers (R117) and the default flow-control bytes (log 2). -/
def reservedBytes : List Byte := [0x7E, 0x7D, 0x11, 0x13]

/-- A frame with every reserved byte after the first sent as 7D and the byte xor 20, written out
(R118, R160). -/
def escapedBytes : List Byte → List Byte
  | [] => []
  | b :: bs => b :: bs.flatMap fun r => if r ∈ reservedBytes then [0x7D, r ^^^ 0x20] else [r]

/-- Frame data that an ENCODE can send: the length field and TX_CAP hold it, escaped too in API mode 2
(R189). -/
def Fits (c : ConfigRegs) (d : List Byte) : Prop :=
  d.length ≤ 65535 ∧ d.length + 4 ≤ c.txCap.toNat ∧
    (c.apiMode = 2 → (escapedBytes (frameBytes d)).length ≤ c.txCap.toNat)

/-- What an ENCODE returns for frame data (R190). -/
def wireBytes (c : ConfigRegs) (d : List Byte) : List Byte :=
  if c.apiMode = 2 then escapedBytes (frameBytes d) else frameBytes d

/-- A frame has been sent and nothing else has changed: the result is the wire frame, FID holds `fid`, and
TXBUF holds the unescaped frame from index 0 and its old bytes after it (R82, R181). -/
def Sent (s t : State) (fid : Byte) (d : List Byte) : Prop :=
  t = { s with
        fid := fid
        txbuf := t.txbuf
        results := s.results ++ [.encoded (wireBytes s.cfg d)] } ∧
    ∀ a, t.txbuf.read a = if a < d.length + 4 then (frameBytes d).getD a 0 else s.txbuf.read a

/-- The id of a message that carries one, and FID after it (R182, R183). -/
def assignedId (s : State) (id : Option Byte) : Byte :=
  match id with
  | some i => i
  | none => if 255 ≤ s.fid.toNat then 1 else s.fid + 1

/-- FID after an id is assigned (R182, R183). -/
def fidAfter (s : State) (id : Option Byte) : Byte :=
  match id with
  | some _ => s.fid
  | none => if 255 ≤ s.fid.toNat then 1 else s.fid + 1

/-- What a serializer's end does with its frame data: the frame is sent if it fits; else the size is
reported, the unescaped size first, nothing is returned, and FID keeps its advance (R189, R194). -/
def SendsOrReports (s : State) (id : Option Byte) (d : List Byte)
    (o : Host.Outcome State Fault Refusal) : Prop :=
  (Fits s.cfg d → ∃ t, o = .next t ∧ Sent s t (fidAfter s id) d) ∧
  (65535 < d.length ∨ s.cfg.txCap.toNat < d.length + 4 →
    o = .next { s with
      fid := fidAfter s id, events := s.events ++ [.capacityExceeded (d.length + 4)] }) ∧
  (d.length ≤ 65535 → d.length + 4 ≤ s.cfg.txCap.toNat → s.cfg.apiMode = 2 →
    s.cfg.txCap.toNat < (escapedBytes (frameBytes d)).length →
    o = .next { s with
      fid := fidAfter s id
      events := s.events ++ [.capacityExceeded (escapedBytes (frameBytes d)).length] })

/-- An instruction reports one decoded message and changes nothing else (R314). -/
def Delivers (i : Instr) (s : State) (m : Message) : Prop :=
  exec i s = .next { s with events := s.events ++ [.frameObject m] }

/-- An instruction reports one failed decode, with the raw frame, and changes nothing else (R314, R385). -/
def Fails (i : Instr) (s : State) (e : ParseFail) : Prop :=
  ∀ f, s.frame = some f → exec i s = .next { s with events := s.events ++ [.decodeError e f] }

/-- Where a payload of `n` bytes ends inside fields of these widths: at the start of the first field that it
does not hold whole (R232). -/
def cutAt : List Nat → Nat → Nat
  | [], _ => 0
  | w :: ws, n => if n < w then 0 else w + cutAt ws (n - w)

/-- A parser row whose first fields have these widths fails every shorter payload by truncation, at the
start of the first field that the payload does not hold whole (R232, R233, R385). -/
def FailsShort (row : List Byte → Instr) (widths : List Nat) : Prop :=
  ∀ (s : State) (p : List Byte), p.length < widths.sum →
    Fails (row p) s (.truncated (cutAt widths p.length))

/-- The events that end the processing of a completed frame (R389). -/
def FrameLevel : Event → Prop
  | .frameObject _ => True
  | .frameRaw _ => True
  | .decodeError _ _ => True
  | _ => False

/-- A cluster or profile id as its two wire bytes, read as a number (R85): the two forms of one id have the
same value. -/
def idValue : Id16 → Half
  | .number v => v
  | .raw a => be16 a.b0 a.b1

/-- Encoding `m` and decoding the payload after type of the unescaped frame gives `m'` (R289). -/
def RoundTrips (m m' : Message) : Prop :=
  ∀ (i : Instr) (s t : State) (w : List Byte), decode (.message m) = .ok i → exec i s = .next t →
    t.results = s.results ++ [.encoded w] →
    refDecode s.cfg m.type (((if s.cfg.apiMode = 2 then unescape w else w).drop 4).dropLast) =
      some (.ok m')

/-- The set bits of an analog mask, ascending (R260). -/
def analogBits (mask : Byte) : List Nat := (List.range 8).filter fun b => mask.getLsbD b

/-- The digital names of R262, written out: DIO2 to DIO4 are the source's, the rest the default (log 6). -/
def digitalTable : List (Nat × Channel) :=
  [(0, .dio 0), (1, .dio 1), (2, .dio 2), (3, .dio 3), (4, .dio 4), (5, .dio 5), (6, .dio 6),
   (7, .dio 7), (10, .dio 10), (11, .dio 11), (12, .dio 12)]

/-- The analog names of R262, written out: AD1 is the source's, the rest the default (log 6). -/
def analogTable : List (Nat × Channel) := [(0, .ad 0), (1, .ad 1), (2, .ad 2), (3, .ad 3), (7, .supply)]

/-- The bits of an analog mask that R262 names. -/
abbrev namedBits : List Nat := [0, 1, 2, 3, 7]

/-- The digital samples of a mask and its word, named bits ascending (R261, R262). -/
def namedDigital (mask value : Half) : ChannelMap :=
  (digitalTable.filter fun e => mask.getLsbD e.1).map fun e =>
    (e.2, if value.getLsbD e.1 then 1 else 0)

/-- The analog samples of named bits and their raw words, rescaled (R263, R264). -/
def namedAnalog (c : ConfigRegs) (bits : List Nat) (raws : List Half) : ChannelMap :=
  (bits.zip raws).filterMap fun br => (analogTable.lookup br.1).map fun name => (name, scaleAdc c br.2)

/-- The three fixed fields of an I/O sample payload: count and both masks (R260). -/
def ioHead (count : Byte) (maskD : Half) (maskA : Byte) : List Byte :=
  [count] ++ be16bytes maskD ++ [maskA]

/-- The digital word of an I/O sample payload, if its mask is not 0 (R260). -/
def ioDigital (maskD value : Half) : List Byte := if maskD = 0 then [] else be16bytes value

/-- All an I/O sample payload can come to, for a row that reads it at a position into a message: the samples;
an analog bit without a name, the lowest, once its word is read; a cut in the fixed fields, in the digital
word or in an analog word (R260, R261, R263, R233). -/
def IoPayloadDecodes (row : List Byte → Instr) (pos : Nat) (s : State) (m : Message) : Prop :=
  ∀ (k maskA : Byte) (maskD value : Half) (raws : List Half) (rest : List Byte),
    ((∀ b ∈ analogBits maskA, b ∈ namedBits) → raws.length = (analogBits maskA).length →
      Delivers (row (ioHead k maskD maskA ++ ioDigital maskD value ++ raws.flatMap be16bytes ++ rest)) s
        { m with
          numSamples := some k
          digitalSamples := some (.named (if maskD = 0 then [] else namedDigital maskD value))
          analogSamples := some (.named (namedAnalog s.cfg (analogBits maskA) raws)) }) ∧
    (∀ (low : List Nat) (bad : Nat) (high : List Nat),
      analogBits maskA = low ++ bad :: high → (∀ b ∈ low, b ∈ namedBits) → bad ∉ namedBits →
      raws.length = low.length + 1 →
      Fails (row (ioHead k maskD maskA ++ ioDigital maskD value ++ raws.flatMap be16bytes ++ rest)) s
        (.unnamedChannel bad)) ∧
    (rest.length < 4 → Fails (row rest) s (.truncated (pos + cutAt [1, 2, 1] rest.length))) ∧
    (maskD ≠ 0 → rest.length < 2 →
      Fails (row (ioHead k maskD maskA ++ rest)) s (.truncated (pos + 4))) ∧
    (∀ (low : List Nat) (bit : Nat) (high : List Nat),
      analogBits maskA = low ++ bit :: high → (∀ b ∈ low, b ∈ namedBits) →
      raws.length = low.length → rest.length < 2 →
      Fails (row (ioHead k maskD maskA ++ ioDigital maskD value ++ raws.flatMap be16bytes ++ rest)) s
        (.truncated (pos + 4 + (ioDigital maskD value).length + 2 * low.length)))

/-- The bytes of a node-identification payload without its extension (R267). -/
def nodePrefix (remote16 : Addr16) (remote64 : Addr64) (name : List Byte) : List Byte :=
  remote16.bytes ++ remote64.bytes ++ name ++ [0]

/-- The bytes of the extension (R267). -/
def extensionBytes (e : NodeExtension) : List Byte :=
  e.remoteParent16.bytes ++ [e.deviceType, e.sourceEvent] ++ e.digiProfileID.bytes ++
    e.digiManufacturerID.bytes

/-- All a node-identification payload can come to, for a row that reads it at a position into a message:
without and with its extension; a cut in the addresses; a name without a NUL; 1 to 7 bytes after the NUL
(R267, R268, R232, R233). -/
def NodeIdDecodes (row : List Byte → Instr) (pos : Nat) (s : State) (result : NodeId → Message) : Prop :=
  ∀ (r64 : Addr64) (r16 : Addr16) (name rest : List Byte),
    ((0 : Byte) ∉ name →
      Delivers (row (nodePrefix r16 r64 name)) s
        (result { remote16 := r16, remote64 := r64, nodeIdentifier := name, extension := none }) ∧
      (∀ e : NodeExtension,
        Delivers (row (nodePrefix r16 r64 name ++ extensionBytes e ++ rest)) s
          (result { remote16 := r16, remote64 := r64, nodeIdentifier := name, extension := some e })) ∧
      (1 ≤ rest.length → rest.length ≤ 7 →
        Fails (row (nodePrefix r16 r64 name ++ rest)) s
          (.truncated (pos + 10 + name.length + 1 + cutAt [2, 1, 1, 2, 2] rest.length)))) ∧
    (rest.length < 10 → Fails (row rest) s (.truncated (pos + cutAt [2, 8] rest.length))) ∧
    ((0 : Byte) ∉ rest →
      Fails (row (r16.bytes ++ r64.bytes ++ rest)) s (.truncated (pos + 10)))

end Sys2Proof.Machine
end

