-- ==== Sys2Proof/Certificates/Slice0/Obligations.lean ====
section
/-! DEFINITION. The statements for the provers, from the numbered rules of spec/. -/

open Sys2Proof Sys2Proof.Machine

/-! ## Encodings -/

/-- No bit of an encoding is dropped: at any parameters (R9), every well-formed instruction is read back from
its item. -/
def Obligations.DecodeOfEncodeIsIdentity : Prop :=
  (∀ i : Instr, i.wellFormed = true → decode (encode i) = .ok i) ∧
  ∀ (P : Parameters) (i : Instr), i.wellFormed P = true → decode (encode i P) P = .ok i

/-- Words written out from the spec's encodings, one or more of each format, decode to their rows; the layout
of the 0x88 response and the success status are the default instances (log 5, log 7). -/
def Obligations.WrittenOutWordsDecode : Prop :=
  decode (.command { code := 0x01, chunk := [0x7E, 0x00] }) = .ok (.feed [0x7E, 0x00]) ∧
  decode (.command { code := 0x03 }) = .ok .nextFrameId ∧
  decode (.rxByte { escapedMode := true, waiting := false, escPend := true } 0x7D) = .ok .rxEsc ∧
  decode (.message { type := 0x08, id := some 0x52, command := some ⟨0x4E, 0x4A⟩ }) =
    .ok (.encAtCommand (some 0x52) (some ⟨0x4E, 0x4A⟩) { type := 0x08 }) ∧
  decode (.frame false [0x8B, 0x01, 0x7D, 0x84, 0x00, 0x00, 0x01]) =
    .ok (.decZigbeeTransmitStatus [0x01, 0x7D, 0x84, 0x00, 0x00, 0x01]) ∧
  ∃ (m : Message) (c : Cursor),
    (∀ s : State, exec (.decAtCommandResponse [0x01, 0x4E, 0x44, 0x00, 0x7D]) s =
      .next { s with phase := .atBranch false m c }) ∧
    decode (.atBranch false m c) = .ok (.atNd ⟨false, m⟩ c)

/-- A step runs the instruction it decodes, with its item taken, and then the dispatches that instruction
leaves pending; where the item is found, and what taking it changes, is stated as well. -/
def Obligations.StepRunsDecodedInstruction : Prop :=
  (∀ (s : State) (it : Item) (i : Instr), s.fetch = .item it → decode it = .ok i →
    step s = settle 2 (exec i s.consume)) ∧
  (∀ (s : State) (b : Byte) (bs : List Byte), s.phase = .idle → s.rxq = b :: bs →
    s.fetch = .item (.rxByte
      { escapedMode := s.cfg.apiMode == 2, waiting := s.waiting, escPend := s.escPend } b) ∧
    s.consume = { s with rxq := bs }) ∧
  (∀ (s : State) (c : Command) (cs : List Command), s.phase = .idle → s.rxq = [] →
    s.cmdq = c :: cs → s.fetch = .item (.command c) ∧ s.consume = { s with cmdq := cs }) ∧
  (∀ (s : State) (m : Message), s.phase = .serialize m →
    s.fetch = .item (.message m) ∧ s.consume = { s with phase := .idle }) ∧
  (∀ (s : State) (f : List Byte), s.phase = .emitFrame → s.frame = some f →
    s.fetch = .item (.frame s.cfg.rawFrames ((f.drop 3).dropLast)) ∧
    s.consume = { s with phase := .idle }) ∧
  (∀ (s : State) (remote : Bool) (m : Message) (c : Cursor), s.phase = .atBranch remote m c →
    s.fetch = .item (.atBranch remote m c) ∧ s.consume = { s with phase := .idle }) ∧
  (∀ (n : Nat) (s : State), s.phase = .idle → settle n (.next s) = .next s) ∧
  (∀ (n : Nat) (s : State), s.phase ≠ .idle → settle (n + 1) (.next s) = settle n (micro s))

/-- R121: START, ESC and DATA by value, mode and state; a 0x7E taken as DATA in API mode 2 is written as
0x5E. -/
def Obligations.ByteClassByModeAndState : Prop :=
  (∀ s : State, s.waiting = false → s.escPend = true → s.cnt < s.cfg.rxCap.toNat →
    ∃ t, exec (.rxData 0x7E) s = .next t ∧ t.rxbuf = s.rxbuf.write s.cnt 0x5E) ∧
  ∀ (ctx : RxContext) (b : Byte),
    (ctx.escapedMode = false → ctx.waiting = true → b = 0x7E →
      decode (.rxByte ctx b) = .ok .rxStart) ∧
    (ctx.escapedMode = true → (ctx.waiting = true ∨ ctx.escPend = false) → b = 0x7E →
      decode (.rxByte ctx b) = .ok .rxStart) ∧
    (ctx.escapedMode = true → b = 0x7D → decode (.rxByte ctx b) = .ok .rxEsc) ∧
    (ctx.escapedMode = false → (ctx.waiting = false ∨ b ≠ 0x7E) →
      decode (.rxByte ctx b) = .ok (.rxData b)) ∧
    (ctx.escapedMode = true → b ≠ 0x7D → (b ≠ 0x7E ∨ (ctx.waiting = false ∧ ctx.escPend = true)) →
      decode (.rxByte ctx b) = .ok (.rxData b))

/-- The model's default registry (log 3): exactly the tags without a parser, and every tag when
RAW_FRAMES = 1, are read as DEC_UNREGISTERED. -/
def Obligations.TagWithoutParserIsUnregistered : Prop :=
  ∀ (raw : Bool) (tag : Byte) (p : List Byte),
    decode (.frame raw (tag :: p)) = .ok (.decUnregistered tag p) ↔
      raw = true ∨ tag ∉ ([0x00, 0x01, 0x08, 0x09, 0x10, 0x11, 0x17, 0x80, 0x81, 0x82, 0x83, 0x88,
        0x89, 0x8A, 0x8B, 0x90, 0x91, 0x92, 0x94, 0x95, 0x97, 0xA1] : List Byte)

/-- R127, R252, R254: both responses branch on both bytes of the mnemonic; `ND` takes its branch with status
0x00 (log 7) and bytes remaining; `IS` has a branch on the remote path only. -/
def Obligations.MnemonicSelectsAtBranch : Prop :=
  ∀ (m : Message) (pos : Nat) (c0 c1 st : Byte) (rest : List Byte),
    m.command = some ⟨c0, c1⟩ → m.commandStatus = some st →
    let c : Cursor := ⟨pos, rest⟩
    let nd := c0 = 0x4E ∧ c1 = 0x44 ∧ st = 0x00 ∧ rest ≠ []
    let isIs := c0 = 0x49 ∧ c1 = 0x53
    let other := fun remote : Bool => Instr.atOther
      ⟨remote, { m with command := none, commandStatus := none }⟩ (some ⟨c0, c1⟩) (some st) c
    (nd → ∀ remote, decode (.atBranch remote m c) = .ok (.atNd ⟨remote, m⟩ c)) ∧
    (isIs → decode (.atBranch true m c) =
      .ok (.atIsRemote ⟨true, { m with commandStatus := none }⟩ (some st) c)) ∧
    (¬nd → decode (.atBranch false m c) = .ok (other false)) ∧
    (¬nd → ¬isIs → decode (.atBranch true m c) = .ok (other true))

/-! ## Power-up, host commands -/

/-- R420: power-up is the state RESET(CFG_INIT) gives, with nothing on the ports, for the default CFG_INIT and
for every legal one (R9), and it holds the values of R52. -/
def Obligations.PowerUpIsResetOfCfgInit : Prop :=
  (∀ s : State, ∃ t, exec (.reset Params.cfgInit) s = .next t ∧
    { t with events := [], results := [], cmdq := [], rxq := [] } = State.reset) ∧
  (∀ (P : Parameters) (s : State), legalConfig P.cfgInit = true →
    ∃ t, execFor P (.reset P.cfgInit) s = .next t ∧
      { t with events := [], results := [], cmdq := [], rxq := [] } = State.resetFor P) ∧
  ∀ P : Parameters,
    (State.resetFor P).waiting = true ∧ (State.resetFor P).escPend = false ∧
    (State.resetFor P).cnt = 0 ∧ (State.resetFor P).len = 0 ∧ (State.resetFor P).sum = 0 ∧
    (State.resetFor P).chk = 0 ∧ (State.resetFor P).last = 0 ∧ (State.resetFor P).fid = 0

/-- R354, R11: RESET with a legal record loads it and resets every register; the ports keep what they hold. A
TX_CAP past its 32-bit register reads as the register's greatest value (log 15), and the two buffers are left
with nothing listed (log 13): the model's choices. -/
def Obligations.ResetLoadsLegalConfiguration : Prop :=
  ∀ (c : ConfigRecord) (s : State),
    (c.apiMode = 1 ∨ c.apiMode = 2) → c.rawFrames ≤ 1 → c.convertAdc ≤ 1 → c.vrefAdc ≤ 65535 →
    5 ≤ c.rxCap → c.rxCap ≤ 65539 → 5 ≤ c.txCap →
    ∃ t, exec (.reset c) s = .next t ∧
      t = { State.reset with
            cfg := t.cfg, events := s.events, results := s.results, cmdq := s.cmdq, rxq := s.rxq } ∧
      t.cfg.apiMode.toNat = c.apiMode ∧ t.cfg.rawFrames.toNat = c.rawFrames ∧
      t.cfg.convertAdc.toNat = c.convertAdc ∧ t.cfg.vrefAdc.toNat = c.vrefAdc ∧
      t.cfg.rxCap.toNat = c.rxCap ∧ (c.txCap ≤ 4294967295 → t.cfg.txCap.toNat = c.txCap) ∧
      (4294967295 < c.txCap → t.cfg.txCap.toNat = 4294967295)

/-- R360, the RESET half: a record with any value outside its range changes nothing. -/
def Obligations.IllegalConfigurationIsRefused : Prop :=
  ∀ (c : ConfigRecord) (s : State),
    (c.apiMode ≠ 1 ∧ c.apiMode ≠ 2) ∨ 1 < c.rawFrames ∨ 1 < c.convertAdc ∨ 65535 < c.vrefAdc ∨
      c.rxCap < 5 ∨ 65539 < c.rxCap ∨ c.txCap < 5 →
    exec (.reset c) s = .next s

/-- R351: a command with any other code is refused: no state change, no event, and the port goes on with the
next command. -/
def Obligations.UnknownCommandIsRefused : Prop :=
  (∀ (code : Byte) (s : State), exec (.illegalCommand code) s = .next s) ∧
  ∀ (c : Command), c.code ≠ 0x01 → c.code ≠ 0x02 → c.code ≠ 0x03 → c.code ≠ 0x04 →
    decode (.command c) = .ok (.illegalCommand c.code) ∧
    ∀ (s : State) (cs : List Command), s.phase = .idle → s.rxq = [] → s.cmdq = c :: cs →
      step s = .next { s with cmdq := cs }

/-- R45: the configuration is written by RESET and by no other instruction. -/
def Obligations.OnlyResetWritesConfiguration : Prop :=
  ∀ (i : Instr) (s t : State), (∀ c, i ≠ .reset c) → exec i s = .next t → t.cfg = s.cfg

/-- R182, R356: NEXT_FRAME_ID advances the counter, 255 to 1, and returns its new value. -/
def Obligations.NextFrameIdReturnsAdvancedCounter : Prop :=
  ∀ s : State,
    exec .nextFrameId s = .next { s with
      fid := if 255 ≤ s.fid.toNat then 1 else s.fid + 1
      results := s.results ++ [.frameId (if 255 ≤ s.fid.toNat then 1 else s.fid + 1)] } ∧
    (if 255 ≤ s.fid.toNat then (1 : Byte) else s.fid + 1) ≠ 0

/-- After the first assignment FID never holds 0 again until RESET (R43). -/
def Obligations.FrameIdCounterStaysNonzero : Prop :=
  ∀ (i : Instr) (s t : State), (∀ c, i ≠ .reset c) → s.fid ≠ 0 → exec i s = .next t → t.fid ≠ 0

/-- FEED hands its chunk to the scanner, which takes one byte a step: the model's reading of the fold (log
11). -/
def Obligations.FeedHandsChunkToScanner : Prop :=
  ∀ (c : List Byte) (s : State), exec (.feed c) s = .next { s with rxq := s.rxq ++ c }

/-- R185: a tag with a serializer is dispatched; one without raises UnsupportedFrameType and changes
nothing else, so FID is unchanged. -/
def Obligations.EncodeDispatchesByType : Prop :=
  ∀ (m : Message) (s : State),
    ((∃ i, decode (.message m) = .ok i) →
      exec (.encode m) s = .next { s with phase := .serialize m }) ∧
    (m.type ∉ ([0x00, 0x01, 0x08, 0x09, 0x10, 0x11, 0x17, 0x21] : List Byte) ↔
      ∀ i, decode (.message m) ≠ .ok i) ∧
    (m.type ∉ ([0x00, 0x01, 0x08, 0x09, 0x10, 0x11, 0x17, 0x21] : List Byte) →
      exec (.encode m) s = .next { s with events := s.events ++ [.unsupportedFrameType m.type] })

/-- An ENCODE command and the serializer it selects are one step (R90, R355), whatever tags `ENC_REG` holds
(R9): also a serializer that no row of the opcode table is for (log 26). -/
def Obligations.EncodeCommandIsOneStep : Prop :=
  ∀ (s : State) (c : Command) (cs : List Command),
    s.phase = .idle → s.rxq = [] → s.cmdq = c :: cs → c.code = 0x02 →
    (∀ (t : State) (i : Instr),
      decode (.message c.message) = .ok i → exec i { s with cmdq := cs } = .next t → step s = .next t) ∧
    ∀ (P : Parameters) (ty : FrameType), P.serializerType c.message.type = some ty →
      stepFor P s = State.serialize { s with cmdq := cs } P ty c.message

/-- ENCODE and the serializers read and write no reassembler register (R355). -/
def Obligations.EncodeKeepsReassembler : Prop :=
  ∀ (i : Instr) (s t : State), (i.format = .frameTagEncode ∨ ∃ m, i = .encode m) →
    exec i s = .next t → SameScanner s t ∧ t.cfg = s.cfg ∧ t.rxq = s.rxq ∧ t.cmdq = s.cmdq

/-- The ports are only appended to (R357). -/
def Obligations.EventsAndResultsAreOnlyAppended : Prop :=
  ∀ (i : Instr) (s t : State), exec i s = .next t →
    (∃ es, t.events = s.events ++ es) ∧ (∃ rs, t.results = s.results ++ rs)

/-! ## Escaping and checksum -/

/-- R163: Unescape inverts Escape on every byte sequence, whatever the flow-control bytes (R9). -/
def Obligations.UnescapeInvertsEscape : Prop :=
  (∀ s : List Byte, unescape (escape s) = s) ∧
  ∀ (P : Parameters) (s : List Byte), unescape (escape s P) = s

/-- R117, R118, R160, R166: the reserved bytes are 7E, 7D, XON and XOFF, by default 0x11 and 0x13 (log 2); Escape
copies the first byte and sends every reserved byte after it as 7D and the byte xor 20; so each adds one byte
to the length. -/
def Obligations.EscapedLengthCountsReserved : Prop :=
  (∀ b : Byte, reserved b = true ↔ b = 0x7E ∨ b = 0x7D ∨ b = 0x11 ∨ b = 0x13) ∧
  (∀ (P : Parameters) (b : Byte), reserved b P = true ↔ b = 0x7E ∨ b = 0x7D ∨ b = P.xon ∨ b = P.xoff) ∧
  (∀ P : Parameters, escape [] P = [] ∧ ∀ (b : Byte) (s : List Byte),
    escape (b :: s) P = b :: s.flatMap fun r => if reserved r P then [0x7D, r ^^^ 0x20] else [r]) ∧
  (∀ s : List Byte, (escape s).length = s.length + (s.tail.filter fun b => reserved b).length) ∧
  ∀ s : List Byte, s ≠ [] → (escape s).length ≤ 2 * s.length - 1

/-- R164: Escape keeps the first byte. At the default XON and XOFF (log 2; an XON of 0x5E would break it) no
start marker stands after it, so the leading one is the only one, and no two escape markers stand in a row
(R162). -/
def Obligations.EscapeKeepsLeadingByteOnly : Prop :=
  ∀ (b : Byte) (s : List Byte), ∃ e, escape (b :: s) = b :: e ∧ (0x7E : Byte) ∉ e ∧
    ∀ x y : List Byte, e ≠ x ++ 0x7D :: 0x7D :: y

/-- R115: the checksum is the complement of the 8-bit sum, and a frame is valid iff sum and checksum add to
0xFF. -/
def Obligations.ChecksumComplementsSum : Prop :=
  (∀ d : List Byte, (checksum d).toNat = 255 - (d.map BitVec.toNat).sum % 256) ∧
  (∀ d : List Byte, checksum d = ~~~(sumBytes d)) ∧
  (∀ (d : List Byte) (c : Byte),
    c = checksum d ↔ ((d.map BitVec.toNat).sum + c.toNat) % 256 = 255) ∧
  checksum [] = 0xFF

/-! ## The encoder -/

/-- R201: AT_COMMAND is sent, or its size is reported; without a command, MissingField is. What TXBUF holds
after it is log 25. -/
def Obligations.AtCommandIsSent : Prop :=
  ∀ (s : State) (id : Option Byte) (rest : Message), rest.type = 0x08 →
    exec (.encAtCommand id none rest) s =
      .next { s with events := s.events ++ [.missingField 0x08 .command] } ∧
    ∀ c : Ascii2, s.txbuf.wf →
      SendsOrReports s id ([0x08, assignedId s id] ++ c.bytes ++ rest.commandParameter.getD [])
        (exec (.encAtCommand id (some c) rest) s)

/-- The default serializers of the queued and the remote AT command (log 3, log 4); what TXBUF holds after
them is log 25. -/
def Obligations.QueuedAndRemoteAtCommandsAreSent : Prop :=
  ∀ (s : State) (id : Option Byte) (c : Ascii2) (rest : Message), s.txbuf.wf →
    (rest.type = 0x09 →
      SendsOrReports s id ([0x09, assignedId s id] ++ c.bytes ++ rest.commandParameter.getD [])
        (exec (.encAtCommandQueueParameterValue id (some c) rest) s)) ∧
    (∀ (a : Addr64) (n : Option Addr16) (o : Option Byte), rest.type = 0x17 →
      SendsOrReports s id
        ([0x17, assignedId s id] ++ a.bytes ++ (n.getD ⟨0xFF, 0xFE⟩).bytes ++ [o.getD 0x02] ++ c.bytes ++
          rest.commandParameter.getD [])
        (exec (.encRemoteAtCommandRequest id (some a) n o (some c) rest) s))

/-- The default serializers of the transmit request and the explicit addressing frame (log 3, log 4); a
cluster or profile id is sent big-endian, in whichever of its two forms it is given (R85, R192; log 20). What
TXBUF holds after them is log 25. -/
def Obligations.ZigbeeRequestsAreSent : Prop :=
  (∀ h l : Byte, idBytes (.number (be16 h l)) = [h, l] ∧ idBytes (.raw ⟨h, l⟩) = [h, l] ∧
    (be16 h l).toNat = 256 * h.toNat + l.toNat) ∧
  ∀ (s : State) (id : Option Byte) (a : Addr64) (n : Option Addr16) (r o : Option Byte) (rest : Message),
    s.txbuf.wf →
    (rest.type = 0x10 →
      SendsOrReports s id
        ([0x10, assignedId s id] ++ a.bytes ++ (n.getD ⟨0xFF, 0xFE⟩).bytes ++ [r.getD 0, o.getD 0] ++
          rest.data.getD [])
        (exec (.encZigbeeTransmitRequest id (some a) n r o rest) s)) ∧
    (∀ (se de : Byte) (cl pr : Id16), rest.type = 0x11 →
      SendsOrReports s id
        ([0x11, assignedId s id] ++ a.bytes ++ (n.getD ⟨0xFF, 0xFE⟩).bytes ++ [se, de] ++ idBytes cl ++
          idBytes pr ++ [r.getD 0, o.getD 0] ++ rest.data.getD [])
        (exec (.encExplicitAddressingZigbeeCommandFrame id (some a) n (some se) (some de) (some cl) (some pr)
          r o rest) s))

/-- The default serializers of the 64-bit and 16-bit TX requests (log 3, log 4); what TXBUF holds after them
is log 25. -/
def Obligations.TxRequestsAreSent : Prop :=
  ∀ (s : State) (id o : Option Byte) (rest : Message), s.txbuf.wf →
    (∀ a : Addr64, rest.type = 0x00 →
      SendsOrReports s id ([0x00, assignedId s id] ++ a.bytes ++ [o.getD 0] ++ rest.data.getD [])
        (exec (.encTxRequest64 id (some a) o rest) s)) ∧
    (∀ n : Addr16, rest.type = 0x01 →
      SendsOrReports s id ([0x01, assignedId s id] ++ n.bytes ++ [o.getD 0] ++ rest.data.getD [])
        (exec (.encTxRequest16 id (some n) o rest) s))

/-- CREATE_SOURCE_ROUTE forces frame id 0 and leaves FID alone, whatever id is given (R184); its tag and
layout are the model's default instance (log 3, log 4), what TXBUF holds after it is log 25. More than 255
addresses change nothing (D35; log 17). -/
def Obligations.SourceRouteIsSentWithIdZero : Prop :=
  ∀ (s : State) (id : Option Byte) (rest : Message) (rs : List Half), rest.addresses = some rs →
    (∀ (a : Addr64) (n : Addr16), s.txbuf.wf → rest.type = 0x21 → rs.length ≤ 255 →
      SendsOrReports s (some 0)
        ([0x21, 0x00] ++ a.bytes ++ n.bytes ++ [0x00, BitVec.ofNat 8 rs.length] ++ rs.flatMap be16bytes)
        (exec (.encCreateSourceRoute id (some a) (some n) rest) s)) ∧
    (∀ (a : Option Addr64) (n : Option Addr16), 255 < rs.length →
      exec (.encCreateSourceRoute id a n rest) s = .next s)

/-- R193, its second half: a required field that is absent raises MissingField before any id is allocated,
the first one in the order of the default serializer table (log 4). -/
def Obligations.MissingRequiredFieldIsReported : Prop :=
  ∀ (s : State) (id : Option Byte) (a : Addr64) (n : Option Addr16) (r o se de : Option Byte)
    (c : Option Ascii2) (cl pr : Option Id16) (rest : Message),
    let reports := fun (i : Instr) (f : FieldName) =>
      exec i s = .next { s with events := s.events ++ [.missingField rest.type f] }
    reports (.encAtCommandQueueParameterValue id none rest) .command ∧
    reports (.encRemoteAtCommandRequest id none n o c rest) .destination64 ∧
    reports (.encRemoteAtCommandRequest id (some a) n o none rest) .command ∧
    reports (.encZigbeeTransmitRequest id none n r o rest) .destination64 ∧
    reports (.encExplicitAddressingZigbeeCommandFrame id none n se de cl pr r o rest) .destination64 ∧
    reports (.encExplicitAddressingZigbeeCommandFrame id (some a) n none de cl pr r o rest)
      .sourceEndpoint ∧
    (∀ e1 e2 : Byte, ∀ i1 : Id16,
      reports (.encExplicitAddressingZigbeeCommandFrame id (some a) n (some e1) none cl pr r o rest)
        .destinationEndpoint ∧
      reports
        (.encExplicitAddressingZigbeeCommandFrame id (some a) n (some e1) (some e2) none pr r o rest)
        .clusterId ∧
      reports
        (.encExplicitAddressingZigbeeCommandFrame id (some a) n (some e1) (some e2) (some i1) none r o
          rest) .profileId) ∧
    reports (.encTxRequest64 id none o rest) .destination64 ∧
    reports (.encTxRequest16 id none o rest) .destination16 ∧
    ((rest.addresses.getD []).length ≤ 255 →
      reports (.encCreateSourceRoute id none n rest) .destination64 ∧
      reports (.encCreateSourceRoute id (some a) none rest) .destination16 ∧
      ∀ d : Addr16, rest.addresses = none →
        reports (.encCreateSourceRoute id (some a) (some d) rest) .addresses)

/-! ## The reassembler -/

/-- R303, R308: 0x7E from Idle, or in escaped mode with no escape pending, resets the candidate frame's
registers and is written at index 0. That the other bytes of RXBUF stay is the model's choice (log 13). -/
def Obligations.StartMarkerBeginsFrame : Prop :=
  (∀ ctx : RxContext, decode (.rxByte ctx 0x7E) = .ok .rxStart ↔
    ctx.waiting = true ∨ (ctx.escapedMode = true ∧ ctx.escPend = false)) ∧
  ∀ s : State, 0 < s.cfg.rxCap.toNat →
    exec .rxStart s = .next { s with
      waiting := false, escPend := false, cnt := 1, len := 0, sum := 0, chk := 0, last := 0x7E
      rxbuf := s.rxbuf.write 0 0x7E }

/-- R304: in API mode 2 alone, whatever the flags, 0x7D is consumed and leaves the escape pending. -/
def Obligations.EscapeMarkerIsConsumed : Prop :=
  (∀ ctx : RxContext, decode (.rxByte ctx 0x7D) =
    .ok (if ctx.escapedMode = true then .rxEsc else .rxData 0x7D)) ∧
  ∀ s : State, exec .rxEsc s = .next { s with escPend := true, last := 0x7D }

/-- R302: an Idle byte that starts no frame changes ESC_PEND and LAST only and produces no event. -/
def Obligations.IdleSkipsData : Prop :=
  ∀ s : State, s.waiting = true →
    (∀ b : Byte, exec (.rxData b) s = .next { s with
      escPend := false, last := if s.escPend then b ^^^ 0x20 else b }) ∧
    exec .rxEsc s = .next { s with escPend := true, last := 0x7D }

/-- R306, R309, R310: offsets 2 and 3 are appended and give the big-endian length. -/
def Obligations.LengthBytesAreBigEndian : Prop :=
  ∀ (s : State) (b : Byte), s.waiting = false → s.cnt < s.cfg.rxCap.toNat →
    let v := if s.escPend then b ^^^ 0x20 else b
    (s.cnt = 1 → exec (.rxData b) s = .next { s with
      escPend := false, last := v, rxbuf := s.rxbuf.write 1 v, cnt := 2, len := be16 v 0 }) ∧
    (s.cnt = 2 → exec (.rxData b) s = .next { s with
      escPend := false, last := v, rxbuf := s.rxbuf.write 2 v, cnt := 3
      len := s.len + v.setWidth 16 }) ∧
    (∀ h : Byte, be16 h 0 + v.setWidth 16 = be16 h v)

/-- R311: frame data is appended and summed. -/
def Obligations.FrameDataIsSummed : Prop :=
  ∀ (s : State) (b : Byte), s.waiting = false → s.cnt < s.cfg.rxCap.toNat → 3 ≤ s.cnt →
    s.cnt + 1 < s.len.toNat + 4 →
    let v := if s.escPend then b ^^^ 0x20 else b
    exec (.rxData b) s = .next { s with
      escPend := false, last := v, rxbuf := s.rxbuf.write s.cnt v, cnt := s.cnt + 1
      sum := s.sum + v }

/-- R312, R316: a byte at offset 4 or above, past the frame data and with no completion, is appended and
stored in CHK, with no event. -/
def Obligations.OrphanByteIsStored : Prop :=
  ∀ (s : State) (b : Byte), s.waiting = false → s.cnt < s.cfg.rxCap.toNat → 3 ≤ s.cnt →
    s.len = 0 →
    let v := if s.escPend then b ^^^ 0x20 else b
    exec (.rxData b) s = .next { s with
      escPend := false, last := v, rxbuf := s.rxbuf.write s.cnt v, cnt := s.cnt + 1, chk := v }

/-- R313, R315: the checksum byte completes the frame: a mismatch is reported, the machine is Idle with
LEN = 0, and the frame is handed to the multiplexer (the phase is the model's, log 11). -/
def Obligations.ChecksumByteCompletesFrame : Prop :=
  ∀ (s : State) (b : Byte), s.waiting = false → s.cnt < s.cfg.rxCap.toNat → 0 < s.len.toNat →
    s.cnt + 1 = s.len.toNat + 4 →
    let v := if s.escPend then b ^^^ 0x20 else b
    exec (.rxData b) s = .next { s with
      escPend := false, last := v, rxbuf := s.rxbuf.write s.cnt v, cnt := s.cnt + 1, chk := v
      waiting := true, len := 0, phase := .emitFrame
      events := s.events ++ if v = 0xFF - s.sum then [] else [.checksumMismatch v (0xFF - s.sum)] }

/-- R307: with the buffer full, the byte is not written, CapacityExceeded is reported, and the machine is
Idle. -/
def Obligations.FullBufferIsReported : Prop :=
  ∀ (s : State) (b : Byte), s.waiting = false → s.cfg.rxCap.toNat ≤ s.cnt →
    exec (.rxData b) s = .next { s with
      escPend := false, last := if s.escPend then b ^^^ 0x20 else b, waiting := true
      events := s.events ++ [.capacityExceeded s.cfg.rxCap.toNat] }

/-- A received byte writes RXBUF at one index at most, CNT (0 for a start marker), and never while the
machine stays Idle or the buffer is full; TXBUF, FID, the results and the configuration are untouched
(R306, R81). -/
def Obligations.ReceivedByteWritesOneIndex : Prop :=
  ∀ (s t : State) (b : Byte) (i : Instr), (i = .rxStart ∨ i = .rxEsc ∨ i = .rxData b) →
    exec i s = .next t →
    SameEncoder s t ∧ t.cfg = s.cfg ∧ t.cmdq = s.cmdq ∧ t.rxq = s.rxq ∧
    (i = .rxStart → ∀ a, a ≠ 0 → t.rxbuf.read a = s.rxbuf.read a) ∧
    (i = .rxEsc → t.rxbuf = s.rxbuf) ∧
    (i = .rxData b → ∀ a, a ≠ s.cnt → t.rxbuf.read a = s.rxbuf.read a) ∧
    (i = .rxData b → s.waiting = true ∨ s.cfg.rxCap.toNat ≤ s.cnt → t.rxbuf = s.rxbuf)

/-- R301: the step of a received byte, with the dispatches it leads to, is RxStep as the spec writes it, at any
parameters (R9). -/
def Obligations.ReceivedByteStepIsRxStep : Prop :=
  ∀ (s : State) (b : Byte) (bs : List Byte), s.phase = .idle → s.rxq = b :: bs →
    step s = .next (refRxStep b { s with rxq := bs }) ∧
    ∀ P : Parameters, stepFor P s = .next (refRxStep b { s with rxq := bs } P)

/-- R352: a FEED runs to the fold of RxStep over its chunk, one byte a step after the step that takes the
command. -/
def Obligations.FeedRunsToFoldOfRxStep : Prop :=
  ∀ (s : State) (k : Command) (cs : List Command), s.phase = .idle → s.rxq = [] →
    s.cmdq = k :: cs → k.code = 0x01 →
    Machine.run (1 + k.chunk.length) s =
      .next (k.chunk.foldl (fun t b => refRxStep b t) { s with cmdq := cs })

/-- R353: two FEEDs leave the same state and the same events as one FEED of both chunks. -/
def Obligations.SplitFeedsAgree : Prop :=
  ∀ (s : State) (k1 k2 k : Command) (cs : List Command), s.phase = .idle → s.rxq = [] →
    k1.code = 0x01 → k2.code = 0x01 → k.code = 0x01 → k.chunk = k1.chunk ++ k2.chunk →
    Machine.run (2 + k.chunk.length) { s with cmdq := k1 :: k2 :: cs } =
      Machine.run (1 + k.chunk.length) { s with cmdq := k :: cs }

/-- R389: the possible event lists of the step of one received byte. -/
def Obligations.EventsOfOneReceivedByte : Prop :=
  ∀ (s t : State) (b : Byte) (bs : List Byte), s.phase = .idle → s.rxq = b :: bs →
    step s = .next t →
    ∃ es, t.events = s.events ++ es ∧
      (es = [] ∨ es = [.capacityExceeded s.cfg.rxCap.toNat] ∨
        ∃ f, FrameLevel f ∧ (es = [f] ∨ ∃ r e, r ≠ e ∧ es = [.checksumMismatch r e, f]))

/-- R320: from Idle, bytes that are no start marker are skipped: no event, and only ESC_PEND and LAST
change. -/
def Obligations.LeadingGarbageIsSkipped : Prop :=
  ∀ (s : State) (g more : List Byte), s.phase = .idle → s.waiting = true → s.rxq = g ++ more →
    (0x7E : Byte) ∉ g →
    ∃ t, Machine.run g.length s = .next t ∧
      t = { s with rxq := more, escPend := t.escPend, last := t.last }

/-- A frame as the encoder sends it in the configured API mode, received from Idle, is delivered: its one
frame-level event, no mismatch, Idle again, nothing else of the ports touched (R313, R314, R322, R323). -/
def Obligations.SentFrameIsDelivered : Prop :=
  ∀ (s : State) (d more : List Byte), s.phase = .idle → s.waiting = true → s.rxbuf.wf →
    (s.cfg.apiMode = 1 ∨ s.cfg.apiMode = 2) → 1 ≤ d.length → d.length ≤ 65535 →
    d.length + 4 ≤ s.cfg.rxCap.toNat → s.rxq = wireBytes s.cfg d ++ more →
    ∃ t, Machine.run (wireBytes s.cfg d).length s = .next t ∧
      t.events = s.events ++ [refFrameEvent s.cfg (frameBytes d)] ∧
      t.rxq = more ∧ t.waiting = true ∧ t.phase = .idle ∧ t.cnt = d.length + 4 ∧ t.len = 0 ∧
      t.sum = sumBytes d ∧ t.chk = checksum d ∧
      SameEncoder s t ∧ t.cfg = s.cfg ∧ t.cmdq = s.cmdq

/-- The invariant holds at power-up, at the default parameters and at any with a legal CFG_INIT. -/
def Obligations.InvariantHoldsAtPowerUp : Prop :=
  Inv State.reset ∧ ∀ P : Parameters, legalConfig P.cfgInit = true → Inv (State.resetFor P)

/-- R42, made inductive: every step keeps the invariants between steps, with the configuration legal and
both memories canonical, at any parameters (R9). -/
def Obligations.EveryStepKeepsInvariant : Prop :=
  (∀ s t : State, Inv s → step s = .next t → Inv t) ∧
  ∀ (P : Parameters) (s t : State), Inv s → stepFor P s = .next t → Inv t

/-- No error ends the machine (R325, R387): between steps, every step answers a next state, with every
dispatch finished, at any parameters (R9). -/
def Obligations.NoErrorEndsTheBlock : Prop :=
  ∀ s : State, s.phase = .idle → (∃ t, step s = .next t ∧ t.phase = .idle) ∧
    ∀ P : Parameters, ∃ t, stepFor P s = .next t ∧ t.phase = .idle

/-! ## The decoder -/

/-- R256: ZIGBEE_TRANSMIT_STATUS; bytes after the sixth are ignored. -/
def Obligations.TransmitStatusDecodes : Prop :=
  (∀ (s : State) (i r d v : Byte) (n : Addr16) (rest : List Byte),
    Delivers (.decZigbeeTransmitStatus (i :: (n.bytes ++ r :: d :: v :: rest))) s
      { type := 0x8B, id := some i, remote16 := some n, transmitRetryCount := some r,
        deliveryStatus := some d, discoveryStatus := some v }) ∧
  FailsShort .decZigbeeTransmitStatus [1, 2, 1, 1, 1]

/-- The default parsers of MODEM_STATUS, TX_STATUS and the five receive packets (log 3, log 5). -/
def Obligations.ReceiveAndStatusFramesDecode : Prop :=
  (∀ (s : State) (v : Byte) (rest : List Byte),
    Delivers (.decModemStatus (v :: rest)) s { type := 0x8A, modemStatus := some v }) ∧
  (∀ (s : State) (i d : Byte) (rest : List Byte),
    Delivers (.decTxStatus (i :: d :: rest)) s
      { type := 0x89, id := some i, deliveryStatus := some d }) ∧
  FailsShort .decModemStatus [1] ∧ FailsShort .decTxStatus [1, 1] ∧
  (∀ (s : State) (a : Addr64) (n : Addr16) (o : Byte) (data : List Byte),
    Delivers (.decZigbeeReceivePacket (a.bytes ++ n.bytes ++ o :: data)) s
      { type := 0x90, remote64 := some a, remote16 := some n, receiveOptions := some o,
        data := some data }) ∧
  (∀ (s : State) (a : Addr64) (n cl pr : Addr16) (se de o : Byte) (data : List Byte),
    Delivers
      (.decZigbeeExplicitRx (a.bytes ++ n.bytes ++ [se, de] ++ cl.bytes ++ pr.bytes ++ o :: data)) s
      { type := 0x91, remote64 := some a, remote16 := some n, sourceEndpoint := some se,
        destinationEndpoint := some de, clusterId := some (.raw cl), profileId := some (.raw pr),
        receiveOptions := some o, data := some data }) ∧
  (∀ (s : State) (a : Addr64) (r o : Byte) (data : List Byte),
    Delivers (.decRxPacket64 (a.bytes ++ r :: o :: data)) s
      { type := 0x80, remote64 := some a, rssi := some r, receiveOptions := some o,
        data := some data } ∧
    Delivers (.decRxPacket64Io (a.bytes ++ r :: o :: data)) s
      { type := 0x82, remote64 := some a, rssi := some r, receiveOptions := some o,
        data := some data }) ∧
  (∀ (s : State) (n : Addr16) (r o : Byte) (data : List Byte),
    Delivers (.decRxPacket16 (n.bytes ++ r :: o :: data)) s
      { type := 0x81, remote16 := some n, rssi := some r, receiveOptions := some o,
        data := some data }) ∧
  FailsShort .decZigbeeReceivePacket [8, 2, 1] ∧ FailsShort .decZigbeeExplicitRx [8, 2, 1, 1, 2, 2, 1] ∧
  FailsShort .decRxPacket64 [8, 1, 1] ∧ FailsShort .decRxPacket64Io [8, 1, 1] ∧ FailsShort .decRxPacket16 [2, 1, 1]

/-- The I/O sample frame: named digital bits of one shared word, one rescaled analog word for each named bit;
the lowest set bit without a name fails the decode once its word is read; a cut payload is truncated where
the first missing field stands (R260, R261, R262, R263; the outer layout and most names are the default
instances, log 5, log 6). With any name tables (R9) a map holds each name once, with the value of the highest
set bit of that name. -/
def Obligations.IoSampleFrameDecodes : Prop :=
  (∀ (s : State) (a : Addr64) (n : Addr16) (o : Byte),
    IoPayloadDecodes (fun q => .decZigbeeIoDataSampleRx (a.bytes ++ n.bytes ++ o :: q)) 11 s
      { type := 0x92, remote64 := some a, remote16 := some n, receiveOptions := some o }) ∧
  FailsShort .decZigbeeIoDataSampleRx [8, 2, 1, 1, 2, 1] ∧
  ∀ (digitalName analogName : Nat → Option Channel) (s : State) (a : Addr64) (n : Addr16) (o k maskA : Byte)
    (maskD value : Half) (raws : List Half) (rest : List Byte),
    (∀ b ∈ analogBits maskA, analogName b ≠ none) → raws.length = (analogBits maskA).length →
    ∃ digital analog : ChannelMap,
      execFor { Params.default with digitalName, analogName }
        (.decZigbeeIoDataSampleRx (a.bytes ++ n.bytes ++ o ::
          (ioHead k maskD maskA ++ ioDigital maskD value ++ raws.flatMap be16bytes ++ rest))) s =
        .next { s with events := s.events ++ [.frameObject
          { type := 0x92, remote64 := some a, remote16 := some n, receiveOptions := some o,
            numSamples := some k, digitalSamples := some (.named digital),
            analogSamples := some (.named analog) }] } ∧
      (digital.map Prod.fst).Nodup ∧ (analog.map Prod.fst).Nodup ∧
      ∀ name : Channel,
        digital.lookup name =
          (((List.range 16).filter fun b =>
            maskD.getLsbD b && digitalName b == some name).getLast?).map
              (fun b => (value.getLsbD b).toNat) ∧
        analog.lookup name =
          ((((analogBits maskA).zip raws).filter fun e =>
            analogName e.1 == some name).getLast?).map fun e => scaleAdc s.cfg e.2

/-- The sensor frame: millivolts, the signed temperature, and derived fields present or absent by flag
(R270 to R275), the humidity functions by their default formulas, rounded to hundredths (R274; log 5, log 7,
log 8); with a divisor of 0 mV the humidity is the free value of log 9, whatever it is. -/
def Obligations.SensorFrameDecodes : Prop :=
  (∀ (s : State) (a : Addr64) (n : Addr16) (o f : Byte) (w0 w1 w2 w3 t : Half) (rest : List Byte),
    let temperature : Int := if t.toNat < 2048 then t.toNat else -(t.toNat % 2048 : Nat)
    let hasT : Bool := f.getLsbD 1
    let hasRh : Bool := f.getLsbD 0
    ∃ humidity trueHumidity : Int,
      (w2 ≠ 0 → humidity =
        ⌊100 * (((20 * w3.toNat : ℚ) / (20 * w2.toNat) - 16 / 100) / (62 / 10000)) + 1 / 2⌋) ∧
      trueHumidity =
        ⌊100 * ((humidity : ℚ) / 100 / (10546 / 10000 - 216 / 100000 * (temperature / 16))) + 1 / 2⌋ ∧
      Delivers
        (.decXbeeSensorRead (a.bytes ++ n.bytes ++ [o, f] ++ be16bytes w0 ++ be16bytes w1 ++
          be16bytes w2 ++ be16bytes w3 ++ be16bytes t ++ rest)) s
        { type := 0x94, remote64 := some a, remote16 := some n, receiveOptions := some o,
          sensors := some f
          AD := some [20 * w0.toNat, 20 * w1.toNat, 20 * w2.toNat, 20 * w3.toNat]
          T := some t
          temperature16 := if hasT then some temperature else none
          relativeHumidity := if hasRh then some humidity else none
          trueHumidity := if hasT && hasRh then some trueHumidity else none }) ∧
  FailsShort .decXbeeSensorRead [8, 2, 1, 1, 2, 2, 2, 2, 2]

/-- The node identification frame, without and with its extension; a payload cut anywhere, a name without a
NUL and 1 to 7 bytes after the name fail the decode where the first missing field stands (R266 to R268; the
layout is the default instance, log 5). -/
def Obligations.NodeIdentificationDecodes : Prop :=
  (∀ (s : State) (a : Addr64) (n : Addr16) (o : Byte),
    NodeIdDecodes (fun q => .decNodeIdentification (a.bytes ++ n.bytes ++ o :: q)) 11 s fun d =>
      { type := 0x95, sender64 := some a, sender16 := some n, receiveOptions := some o,
        remote16 := some d.remote16, remote64 := some d.remote64,
        nodeIdentifier := some d.nodeIdentifier,
        remoteParent16 := d.extension.map (·.remoteParent16),
        deviceType := d.extension.map (·.deviceType), sourceEvent := d.extension.map (·.sourceEvent),
        digiProfileID := d.extension.map (·.digiProfileID),
        digiManufacturerID := d.extension.map (·.digiManufacturerID) }) ∧
  FailsShort .decNodeIdentification [8, 2, 1]

/-- The route record (the default instance, log 5): as many addresses as hops; fewer bytes fail at the
first address that is cut. -/
def Obligations.RouteRecordDecodes : Prop :=
  (∀ (s : State) (a : Addr64) (n : Addr16) (o h : Byte) (rs : List Half) (rest : List Byte),
    rs.length = h.toNat →
    Delivers
      (.decRouteRecord (a.bytes ++ n.bytes ++ [o, h] ++ rs.flatMap be16bytes ++ rest)) s
      { type := 0xA1, remote64 := some a, remote16 := some n, receiveOptions := some o,
        hopCount := some h, addresses := some rs }) ∧
  (∀ (s : State) (a : Addr64) (n : Addr16) (o h : Byte) (rest : List Byte),
    rest.length < 2 * h.toNat →
    Fails (.decRouteRecord (a.bytes ++ n.bytes ++ [o, h] ++ rest)) s
      (.truncated (12 + 2 * (rest.length / 2)))) ∧
  FailsShort .decRouteRecord [8, 2, 1, 1]

/-- The legacy I/O frame: raw digital words first, then the analog values of each sample, unscaled; the
channel set from the mask, analog bits from bit 9, in the model's order (log 19); a payload cut inside the words
or the values fails at the first that is cut (R281; the outer layout and names are the default instances,
log 5, log 6). -/
def Obligations.LegacyIoFrameDecodes : Prop :=
  (∀ (s : State) (n : Addr16) (r o q : Byte) (mask : Half) (ws : List Half)
    (samples : List (List Half)) (rest : List Byte),
    let analog := (List.range 6).filter fun c => mask.getLsbD (c + 9)
    let digital := (List.range 9).filter fun c => mask.getLsbD c
    ws.length = (if digital = [] then 0 else q.toNat) → samples.length = q.toNat →
    (∀ x ∈ samples, x.length = analog.length) →
    Delivers
      (.decRxPacket16Io (n.bytes ++ [r, o, q] ++ be16bytes mask ++ ws.flatMap be16bytes ++
        samples.flatMap (fun x => x.flatMap be16bytes) ++ rest)) s
      { type := 0x83, remote16 := some n, rssi := some r, receiveOptions := some o,
        sampleQuantity := some q, channelMask := some mask
        channels := some (analog.map Channel.adc ++ digital.map Channel.dio)
        digitalSamples := some (.words ws)
        analogSamples := some (.perSample
          (samples.map fun x => (analog.zip x).map fun cv => (Channel.adc cv.1, cv.2.toNat))) }) ∧
  (∀ (s : State) (n : Addr16) (r o q : Byte) (mask : Half) (rest : List Byte),
    let analog := (List.range 6).filter fun c => mask.getLsbD (c + 9)
    let digital := (List.range 9).filter fun c => mask.getLsbD c
    rest.length < 2 * ((if digital = [] then 0 else q.toNat) + q.toNat * analog.length) →
    Fails (.decRxPacket16Io (n.bytes ++ [r, o, q] ++ be16bytes mask ++ rest)) s
      (.truncated (7 + 2 * (rest.length / 2)))) ∧
  FailsShort .decRxPacket16Io [2, 1, 1, 1, 2]

/-- The default parsers of the seven request frames (R283 to R288; log 3, log 5). -/
def Obligations.RequestFramesDecode : Prop :=
  (∀ (s : State) (i : Byte) (c : Ascii2) (par : List Byte),
    Delivers (.decAtCommand (i :: (c.bytes ++ par))) s
      { type := 0x08, id := some i, command := some c, commandParameter := some par } ∧
    Delivers (.decAtCommandQueueParameterValue (i :: (c.bytes ++ par))) s
      { type := 0x09, id := some i, command := some c, commandParameter := some par }) ∧
  (∀ (s : State) (i o : Byte) (a : Addr64) (n : Addr16) (c : Ascii2) (par : List Byte),
    Delivers (.decRemoteAtCommandRequest (i :: (a.bytes ++ n.bytes ++ o :: (c.bytes ++ par)))) s
      { type := 0x17, id := some i, destination64 := some a, destination16 := some n,
        remoteCommandOptions := some o, command := some c, commandParameter := some par }) ∧
  (∀ (s : State) (i r o : Byte) (a : Addr64) (n : Addr16) (data : List Byte),
    Delivers (.decZigbeeTransmitRequest (i :: (a.bytes ++ n.bytes ++ r :: o :: data))) s
      { type := 0x10, id := some i, destination64 := some a, destination16 := some n,
        broadcastRadius := some r, options := some o, data := some data }) ∧
  (∀ (s : State) (i se de r o : Byte) (a : Addr64) (n : Addr16) (cl pr : Half) (data : List Byte),
    Delivers
      (.decExplicitAddressingZigbeeCommandFrame (i :: (a.bytes ++ n.bytes ++ [se, de] ++
        be16bytes cl ++ be16bytes pr ++ r :: o :: data))) s
      { type := 0x11, id := some i, destination64 := some a, destination16 := some n,
        sourceEndpoint := some se, destinationEndpoint := some de, clusterId := some (.number cl),
        profileId := some (.number pr), broadcastRadius := some r, options := some o,
        data := some data }) ∧
  (∀ (s : State) (i o : Byte) (a : Addr64) (n : Addr16) (data : List Byte),
    Delivers (.decTxRequest64 (i :: (a.bytes ++ o :: data))) s
      { type := 0x00, id := some i, destination64 := some a, options := some o,
        data := some data } ∧
    Delivers (.decTxRequest16 (i :: (n.bytes ++ o :: data))) s
      { type := 0x01, id := some i, destination16 := some n, options := some o,
        data := some data }) ∧
  FailsShort .decAtCommand [1, 2] ∧ FailsShort .decAtCommandQueueParameterValue [1, 2] ∧
  FailsShort .decRemoteAtCommandRequest [1, 8, 2, 1, 2] ∧ FailsShort .decZigbeeTransmitRequest [1, 8, 2, 1, 1] ∧
  FailsShort .decExplicitAddressingZigbeeCommandFrame [1, 8, 2, 1, 1, 2, 2, 1, 1] ∧ FailsShort .decTxRequest64 [1, 8, 1] ∧
  FailsShort .decTxRequest16 [1, 2, 1]

/-- R289: with every optional field given, decoding what ENCODE sent gives the message back, for the seven
types with both a serializer and a parser; a cluster or profile id comes back as a number, with the bytes
it was given. -/
def Obligations.EncodedRequestsRoundTrip : Prop :=
  ∀ (i se de r o : Byte) (a : Addr64) (n : Addr16) (cl pr : Id16) (c : Ascii2) (x : List Byte),
    (∀ m ∈ ([{ type := 0x08, id := some i, command := some c, commandParameter := some x },
        { type := 0x09, id := some i, command := some c, commandParameter := some x },
        { type := 0x17, id := some i, destination64 := some a, destination16 := some n,
          remoteCommandOptions := some o, command := some c, commandParameter := some x },
        { type := 0x10, id := some i, destination64 := some a, destination16 := some n,
          broadcastRadius := some r, options := some o, data := some x },
        { type := 0x00, id := some i, destination64 := some a, options := some o,
          data := some x },
        { type := 0x01, id := some i, destination16 := some n, options := some o,
          data := some x }] : List Message),
      RoundTrips m m) ∧
    RoundTrips
      { type := 0x11, id := some i, destination64 := some a, destination16 := some n,
        sourceEndpoint := some se, destinationEndpoint := some de, clusterId := some cl,
        profileId := some pr, broadcastRadius := some r, options := some o, data := some x }
      { type := 0x11, id := some i, destination64 := some a, destination16 := some n,
        sourceEndpoint := some se, destinationEndpoint := some de,
        clusterId := some (.number (idValue cl)), profileId := some (.number (idValue pr)),
        broadcastRadius := some r, options := some o, data := some x } ∧
    idBytes (.number (idValue cl)) = idBytes cl ∧ idBytes (.number (idValue pr)) = idBytes pr

/-- The fixed fields of both AT responses lead to their AT branch, with the cursor after the status (R251,
R253): the phase is the model's (log 11), the layouts are the default instances (log 5). -/
def Obligations.AtResponsesTakeTheirBranch : Prop :=
  (∀ (s : State) (i st : Byte) (c : Ascii2) (rest : List Byte),
    exec (.decAtCommandResponse (i :: (c.bytes ++ st :: rest))) s = .next { s with
      phase := .atBranch false
        { type := 0x88, id := some i, command := some c, commandStatus := some st } ⟨4, rest⟩ }) ∧
  (∀ (s : State) (i st : Byte) (a : Addr64) (n : Addr16) (c : Ascii2) (rest : List Byte),
    exec (.decRemoteCommandResponse (i :: (a.bytes ++ n.bytes ++ c.bytes ++ st :: rest))) s =
      .next { s with
        phase := .atBranch true
          { type := 0x97, id := some i, remote64 := some a, remote16 := some n, command := some c,
            commandStatus := some st } ⟨14, rest⟩ }) ∧
  FailsShort .decAtCommandResponse [1, 2, 1] ∧ FailsShort .decRemoteCommandResponse [1, 8, 2, 2, 1]

/-- The AT branches of a local response, from any message and cursor the response left: `ND` nests a node
identification, cut payloads failing where the first missing field stands; everything else is opaque data
(R252; the nested layout is the default instance, log 5). -/
def Obligations.LocalAtBranchesDecode : Prop :=
  ∀ (s : State) (m : Message) (pos : Nat) (command : Option Ascii2) (status : Option Byte)
    (data : List Byte),
    NodeIdDecodes (fun q => .atNd ⟨false, m⟩ ⟨pos, q⟩) pos s
      (fun d => { m with nodeIdentification := some d }) ∧
    Delivers (.atOther ⟨false, m⟩ command status ⟨pos, data⟩) s
      { m with command := command, commandStatus := status, commandData := some data }

/-- The AT branches of a remote response, from any message and cursor the response left: `ND` nests a node
identification; `IS` is an I/O sample payload on the mnemonic alone, empty for a status other than success;
cut payloads and unnamed analog bits fail the decode; everything else is opaque data (R254, R265; the nested
layout, most names and the success status are the default instances, log 5, log 6, log 7). -/
def Obligations.RemoteAtBranchesDecode : Prop :=
  ∀ (s : State) (m : Message) (pos : Nat) (command : Option Ascii2) (status : Option Byte)
    (data : List Byte),
    NodeIdDecodes (fun q => .atNd ⟨true, m⟩ ⟨pos, q⟩) pos s
      (fun d => { m with nodeIdentification := some d }) ∧
    (∀ st : Byte, st ≠ 0 →
      Delivers (.atIsRemote ⟨true, m⟩ (some st) ⟨pos, data⟩) s
        { m with commandStatus := some st, numSamples := some 0, digitalSamples := some (.named []),
                 analogSamples := some (.named []) }) ∧
    IoPayloadDecodes (fun q => .atIsRemote ⟨true, m⟩ (some 0) ⟨pos, q⟩) pos s
      { m with commandStatus := some 0 } ∧
    Delivers (.atOther ⟨true, m⟩ command status ⟨pos, data⟩) s
      { m with command := command, commandStatus := status, commandData := some data }

/-- A frame with no parser, or any frame when RAW_FRAMES = 1, is reported raw and nothing else happens
(R314). -/
def Obligations.UnregisteredFrameIsReportedRaw : Prop :=
  ∀ (s : State) (tag : Byte) (p : List Byte), s.cnt ≤ s.cfg.rxCap.toNat →
    exec (.decUnregistered tag p) s =
      .next { s with events := s.events ++ [.frameRaw (s.rxbuf.readBytes 0 s.cnt)] }

/-- R264: ADC scaling is the integer form, it is the exact value rounded to nearest, and no tie occurs; with
CONVERT_ADC = 0 the raw value stands. R270, R271: the sensor scale is the exact value of the source's
formula; the temperature is signed on an 11-bit magnitude. -/
def Obligations.ConversionsAreExact : Prop :=
  (∀ (c : ConfigRegs) (raw : Half),
    (c.convertAdc = false → scaleAdc c raw = raw.toNat) ∧
    (c.convertAdc = true →
      scaleAdc c raw = (2 * raw.toNat * c.vrefAdc.toNat + 1023) / 2046 ∧
      2 * 1023 * scaleAdc c raw < 2 * raw.toNat * c.vrefAdc.toNat + 1023 ∧
      2 * raw.toNat * c.vrefAdc.toNat < 2 * 1023 * scaleAdc c raw + 1023 ∧
      scaleAdc c raw < 2 ^ 27)) ∧
  (∀ raw : Half, sensorMv raw = 20 * raw.toNat ∧
    ((sensorMv raw : Nat) : Rat) = (raw.toNat : Rat) * (51 / 10) * 1000 / 255) ∧
  (∀ t : Half, (t.toNat < 2048 → temp16 t = (t.toNat : Int)) ∧
    (2048 ≤ t.toNat → temp16 t = -((t.toNat % 2048 : Nat) : Int)))
end

