-- ==== Sys2Proof/Laws/Memory.lean ====
section
/-! SUPPORT. The laws of the two buffers: every operation keeps the canonical form, a byte written is read
back, and every other index reads as before. -/

namespace Sys2Proof.Machine

theorem Memory.wf_nil : Memory.wf [] := by decide

theorem Memory.wf_tail {c : Host.Cell} {m : Memory} (h : Memory.wf (c :: m)) : Memory.wf m :=
  ⟨h.1.tail, fun d hd => h.2 d (List.mem_cons_of_mem _ hd)⟩

/-- A cell of a written memory is the written one or was there before. -/
theorem Memory.mem_write {m : Memory} {a : Nat} {b : Byte} {c : Host.Cell} (h : c ∈ m.write a b) :
    c.1 = a ∧ c.2 = b ∧ b ≠ Memory.unwritten ∨ c ∈ m := by
  induction m with
  | nil => simp only [Memory.write] at h; split at h <;> simp_all
  | cons d m ih =>
    obtain ⟨k, v⟩ := d
    simp only [Memory.write] at h
    split at h
    · split at h <;> simp_all
      rcases h with rfl | h <;> simp_all
    · split at h
      · split at h <;> simp_all
        rcases h with rfl | h <;> simp_all
      · simp only [List.mem_cons] at h ⊢
        rcases h with h | h
        · exact .inr (.inl h)
        · rcases ih h with h | h
          · exact .inl h
          · exact .inr (.inr h)

/-- A write keeps the canonical form. -/
theorem Memory.wf_write {m : Memory} (a : Nat) (b : Byte) (h : m.wf) : (m.write a b).wf := by
  refine ⟨?_, fun c hc => ?_⟩
  · induction m with
    | nil => simp only [Memory.write]; split <;> simp
    | cons d m ih =>
      obtain ⟨k, v⟩ := d
      have hk : ∀ c ∈ m, k < c.1 := fun c hc => (List.pairwise_cons.mp h.1).1 c hc
      simp only [Memory.write]
      split
      · rename_i hak
        split
        · exact h.1
        · refine List.pairwise_cons.mpr ⟨fun c hc => ?_, h.1⟩
          rcases List.mem_cons.mp hc with rfl | hc
          · exact hak
          · exact Nat.lt_trans hak (hk c hc)
      · split
        · split
          · exact h.1.tail
          · exact List.pairwise_cons.mpr ⟨fun c hc => hk c hc, h.1.tail⟩
        · refine List.pairwise_cons.mpr ⟨fun c hc => ?_, ih (Memory.wf_tail h)⟩
          rcases Memory.mem_write hc with h' | h'
          · have := h'.1; dsimp only; omega
          · exact hk c h'
  · rcases Memory.mem_write hc with h' | h'
    · rw [h'.2.1]; exact h'.2.2
    · exact h.2 c h'

/-- Writing a sequence keeps the canonical form. -/
theorem Memory.wf_writeBytes {m : Memory} (a : Nat) (bs : List Byte) (h : m.wf) :
    (m.writeBytes a bs).wf := by
  induction bs generalizing m a with
  | nil => exact h
  | cons b bs ih => exact ih (a + 1) (Memory.wf_write a b h)

/-- Below its first address a canonical memory lists nothing. -/
theorem Memory.read_of_lt {m : Memory} {a : Nat} (h : ∀ c ∈ m, a < c.1) :
    m.read a = Memory.unwritten := by
  induction m with
  | nil => rfl
  | cons d m ih =>
    have hd := h d (by simp)
    rw [Memory.read, if_neg (by omega)]
    exact ih fun c hc => h c (by simp [hc])

/-- A write leaves every other index alone. -/
theorem Memory.read_write_ne (m : Memory) {a a' : Nat} (b : Byte) (h : a' ≠ a) :
    (m.write a b).read a' = m.read a' := by
  induction m with
  | nil => simp only [Memory.write]; split <;> simp [Memory.read, h.symm]
  | cons d m ih =>
    obtain ⟨k, v⟩ := d
    simp only [Memory.write]
    split
    · split <;> simp [Memory.read, h.symm]
    · split
      · rename_i hak
        have : k ≠ a' := by omega
        split <;> simp [Memory.read, this]
      · simp only [Memory.read, ih]

/-- A byte written is read back. -/
theorem Memory.read_write_self {m : Memory} (a : Nat) (b : Byte) (h : m.wf) :
    (m.write a b).read a = b := by
  induction m with
  | nil => simp only [Memory.write]; split <;> simp_all [Memory.read]
  | cons d m ih =>
    obtain ⟨k, v⟩ := d
    have hk : ∀ c ∈ m, k < c.1 := fun c hc => (List.pairwise_cons.mp h.1).1 c hc
    simp only [Memory.write]
    split
    · rename_i hak
      split
      · rename_i hb
        rw [hb]
        refine Memory.read_of_lt fun c hc => ?_
        rcases List.mem_cons.mp hc with rfl | hc
        · exact hak
        · exact Nat.lt_trans hak (hk c hc)
      · simp [Memory.read]
    · split
      · rename_i hak
        split
        · rename_i hb
          rw [hb]
          exact Memory.read_of_lt fun c hc => hak ▸ hk c hc
        · simp [Memory.read, *]
      · rename_i hak
        rw [Memory.read, if_neg (fun h => hak h.symm)]
        exact ih (Memory.wf_tail h)

theorem Memory.read_write {m : Memory} (a a' : Nat) (b : Byte) (h : m.wf) :
    (m.write a b).read a' = if a' = a then b else m.read a' := by
  split
  · rename_i e; rw [e]; exact Memory.read_write_self a b h
  · rename_i e; exact Memory.read_write_ne m b e

/-- What a sequence written reads as. -/
theorem Memory.read_writeBytes {m : Memory} (a a' : Nat) (bs : List Byte) (h : m.wf) :
    (m.writeBytes a bs).read a' =
      if a ≤ a' ∧ a' < a + bs.length then bs.getD (a' - a) 0 else m.read a' := by
  induction bs generalizing m a with
  | nil => simp [Memory.writeBytes]
  | cons b bs ih =>
    rw [Memory.writeBytes, ih (a + 1) (Memory.wf_write a b h), Memory.read_write a a' b h]
    by_cases h1 : a' = a
    · subst h1; simp
    · by_cases h2 : a + 1 ≤ a' ∧ a' < a + 1 + bs.length
      · rw [if_pos h2, if_pos (by simp; omega)]
        obtain ⟨n, rfl⟩ : ∃ n, a' = a + 1 + n := ⟨a' - (a + 1), by omega⟩
        rw [show a + 1 + n - a = n + 1 by omega, show a + 1 + n - (a + 1) = n by omega]
        simp
      · rw [if_neg h2, if_neg h1, if_neg (by simp; omega)]

@[simp] theorem Memory.readBytes_length (m : Memory) (a n : Nat) : (m.readBytes a n).length = n := by
  induction n generalizing a with
  | zero => rfl
  | succ n ih => simp [Memory.readBytes, ih]

theorem Memory.readBytes_add (m : Memory) (a n k : Nat) :
    m.readBytes a (n + k) = m.readBytes a n ++ m.readBytes (a + n) k := by
  induction n generalizing a with
  | zero => simp [Memory.readBytes]
  | succ n ih =>
    rw [show n + 1 + k = (n + k) + 1 by omega, Memory.readBytes, ih (a + 1), Memory.readBytes,
      show a + 1 + n = a + (n + 1) by omega]
    rfl

/-- Reading one byte more appends that byte. -/
theorem Memory.readBytes_succ (m : Memory) (a n : Nat) :
    m.readBytes a (n + 1) = m.readBytes a n ++ [m.read (a + n)] := by
  rw [Memory.readBytes_add]; rfl

/-- Equal bytes give equal sequences. -/
theorem Memory.readBytes_congr {m m' : Memory} {a n : Nat}
    (h : ∀ i, a ≤ i → i < a + n → m.read i = m'.read i) : m.readBytes a n = m'.readBytes a n := by
  induction n generalizing a with
  | zero => rfl
  | succ n ih =>
    simp only [Memory.readBytes]
    rw [h a (by omega) (by omega), ih fun i h1 h2 => h i (by omega) (by omega)]

/-- A write outside the bytes read does not show. -/
theorem Memory.readBytes_write (m : Memory) {a n i : Nat} (b : Byte) (h : i < a ∨ a + n ≤ i) :
    (m.write i b).readBytes a n = m.readBytes a n :=
  Memory.readBytes_congr fun _ _ _ => Memory.read_write_ne m b (by omega)

/-- The canonical form is canonical: memories that read alike are equal data. -/
theorem Memory.ext_read {m m' : Memory} (h : m.wf) (h' : m'.wf)
    (e : ∀ a, m.read a = m'.read a) : m = m' := by
  have below : ∀ {k : Nat} {v : Byte} {m m' : Memory}, Memory.wf ((k, v) :: m) → m'.wf →
      (∀ a, Memory.read ((k, v) :: m) a = m'.read a) → ∃ c m'', m' = c :: m'' ∧ c.1 ≤ k := by
    intro k v m m' h h' e
    have hk := e k
    rw [Memory.read, if_pos rfl] at hk
    cases m' with
    | nil => exact absurd hk (h.2 (k, v) (by simp))
    | cons c m'' =>
      refine ⟨c, m'', rfl, ?_⟩
      by_contra hc
      refine h.2 (k, v) (by simp) (hk.trans (Memory.read_of_lt fun d hd => ?_))
      rcases List.mem_cons.mp hd with rfl | hd
      · omega
      · have := (List.pairwise_cons.mp h'.1).1 d hd; omega
  induction m generalizing m' with
  | nil =>
    cases m' with
    | nil => rfl
    | cons c m' =>
      obtain ⟨d, _, hd, _⟩ := below h' h (fun a => (e a).symm)
      cases hd
  | cons c m ih =>
    obtain ⟨k, v⟩ := c
    obtain ⟨⟨k', v'⟩, m'', rfl, hle⟩ := below h h' e
    obtain ⟨_, _, hd, hle'⟩ := below h' h (fun a => (e a).symm)
    cases hd
    obtain rfl : k = k' := by dsimp only at hle hle'; omega
    have hv := e k
    simp only [Memory.read, if_true] at hv
    subst hv
    congr 1
    refine ih (Memory.wf_tail h) (Memory.wf_tail h') fun a => ?_
    by_cases ha : k = a
    · subst ha
      rw [Memory.read_of_lt fun c hc => (List.pairwise_cons.mp h.1).1 c hc,
        Memory.read_of_lt fun c hc => (List.pairwise_cons.mp h'.1).1 c hc]
    · have := e a
      simpa only [Memory.read, if_neg ha] using this

end Sys2Proof.Machine
end

