-- ==== Sys2Proof/Laws/State.lean ====
section
/-! SUPPORT. One lemma per field for each named update of the state, so that no proof unfolds a record
update. -/

namespace Sys2Proof.Machine

/-! ## State.emit -/

@[simp] theorem State.emit_waiting (s : State) (e : Event) : (s.emit e).waiting = s.waiting := rfl
@[simp] theorem State.emit_escPend (s : State) (e : Event) : (s.emit e).escPend = s.escPend := rfl
@[simp] theorem State.emit_cnt (s : State) (e : Event) : (s.emit e).cnt = s.cnt := rfl
@[simp] theorem State.emit_len (s : State) (e : Event) : (s.emit e).len = s.len := rfl
@[simp] theorem State.emit_sum (s : State) (e : Event) : (s.emit e).sum = s.sum := rfl
@[simp] theorem State.emit_chk (s : State) (e : Event) : (s.emit e).chk = s.chk := rfl
@[simp] theorem State.emit_last (s : State) (e : Event) : (s.emit e).last = s.last := rfl
@[simp] theorem State.emit_rxbuf (s : State) (e : Event) : (s.emit e).rxbuf = s.rxbuf := rfl
@[simp] theorem State.emit_fid (s : State) (e : Event) : (s.emit e).fid = s.fid := rfl
@[simp] theorem State.emit_txbuf (s : State) (e : Event) : (s.emit e).txbuf = s.txbuf := rfl
@[simp] theorem State.emit_cfg (s : State) (e : Event) : (s.emit e).cfg = s.cfg := rfl
@[simp] theorem State.emit_events (s : State) (e : Event) : (s.emit e).events = s.events ++ [e] := rfl
@[simp] theorem State.emit_results (s : State) (e : Event) : (s.emit e).results = s.results := rfl
@[simp] theorem State.emit_cmdq (s : State) (e : Event) : (s.emit e).cmdq = s.cmdq := rfl
@[simp] theorem State.emit_rxq (s : State) (e : Event) : (s.emit e).rxq = s.rxq := rfl
@[simp] theorem State.emit_phase (s : State) (e : Event) : (s.emit e).phase = s.phase := rfl

/-! ## State.answer -/

@[simp] theorem State.answer_waiting (s : State) (r : Result) : (s.answer r).waiting = s.waiting := rfl
@[simp] theorem State.answer_escPend (s : State) (r : Result) : (s.answer r).escPend = s.escPend := rfl
@[simp] theorem State.answer_cnt (s : State) (r : Result) : (s.answer r).cnt = s.cnt := rfl
@[simp] theorem State.answer_len (s : State) (r : Result) : (s.answer r).len = s.len := rfl
@[simp] theorem State.answer_sum (s : State) (r : Result) : (s.answer r).sum = s.sum := rfl
@[simp] theorem State.answer_chk (s : State) (r : Result) : (s.answer r).chk = s.chk := rfl
@[simp] theorem State.answer_last (s : State) (r : Result) : (s.answer r).last = s.last := rfl
@[simp] theorem State.answer_rxbuf (s : State) (r : Result) : (s.answer r).rxbuf = s.rxbuf := rfl
@[simp] theorem State.answer_fid (s : State) (r : Result) : (s.answer r).fid = s.fid := rfl
@[simp] theorem State.answer_txbuf (s : State) (r : Result) : (s.answer r).txbuf = s.txbuf := rfl
@[simp] theorem State.answer_cfg (s : State) (r : Result) : (s.answer r).cfg = s.cfg := rfl
@[simp] theorem State.answer_events (s : State) (r : Result) : (s.answer r).events = s.events := rfl
@[simp] theorem State.answer_results (s : State) (r : Result) : (s.answer r).results = s.results ++ [r] := rfl
@[simp] theorem State.answer_cmdq (s : State) (r : Result) : (s.answer r).cmdq = s.cmdq := rfl
@[simp] theorem State.answer_rxq (s : State) (r : Result) : (s.answer r).rxq = s.rxq := rfl
@[simp] theorem State.answer_phase (s : State) (r : Result) : (s.answer r).phase = s.phase := rfl

/-! ## State.advanceFid -/

@[simp] theorem State.advanceFid_waiting (s : State) : s.advanceFid.waiting = s.waiting := rfl
@[simp] theorem State.advanceFid_escPend (s : State) : s.advanceFid.escPend = s.escPend := rfl
@[simp] theorem State.advanceFid_cnt (s : State) : s.advanceFid.cnt = s.cnt := rfl
@[simp] theorem State.advanceFid_len (s : State) : s.advanceFid.len = s.len := rfl
@[simp] theorem State.advanceFid_sum (s : State) : s.advanceFid.sum = s.sum := rfl
@[simp] theorem State.advanceFid_chk (s : State) : s.advanceFid.chk = s.chk := rfl
@[simp] theorem State.advanceFid_last (s : State) : s.advanceFid.last = s.last := rfl
@[simp] theorem State.advanceFid_rxbuf (s : State) : s.advanceFid.rxbuf = s.rxbuf := rfl
@[simp] theorem State.advanceFid_fid (s : State) : s.advanceFid.fid = nextFid s.fid := rfl
@[simp] theorem State.advanceFid_txbuf (s : State) : s.advanceFid.txbuf = s.txbuf := rfl
@[simp] theorem State.advanceFid_cfg (s : State) : s.advanceFid.cfg = s.cfg := rfl
@[simp] theorem State.advanceFid_events (s : State) : s.advanceFid.events = s.events := rfl
@[simp] theorem State.advanceFid_results (s : State) : s.advanceFid.results = s.results := rfl
@[simp] theorem State.advanceFid_cmdq (s : State) : s.advanceFid.cmdq = s.cmdq := rfl
@[simp] theorem State.advanceFid_rxq (s : State) : s.advanceFid.rxq = s.rxq := rfl
@[simp] theorem State.advanceFid_phase (s : State) : s.advanceFid.phase = s.phase := rfl

/-! ## State.startFrame -/

@[simp] theorem State.startFrame_waiting (s : State) : s.startFrame.waiting = false := rfl
@[simp] theorem State.startFrame_escPend (s : State) : s.startFrame.escPend = false := rfl
@[simp] theorem State.startFrame_cnt (s : State) : s.startFrame.cnt = 0 := rfl
@[simp] theorem State.startFrame_len (s : State) : s.startFrame.len = 0 := rfl
@[simp] theorem State.startFrame_sum (s : State) : s.startFrame.sum = 0 := rfl
@[simp] theorem State.startFrame_chk (s : State) : s.startFrame.chk = 0 := rfl
@[simp] theorem State.startFrame_last (s : State) : s.startFrame.last = s.last := rfl
@[simp] theorem State.startFrame_rxbuf (s : State) : s.startFrame.rxbuf = s.rxbuf := rfl
@[simp] theorem State.startFrame_fid (s : State) : s.startFrame.fid = s.fid := rfl
@[simp] theorem State.startFrame_txbuf (s : State) : s.startFrame.txbuf = s.txbuf := rfl
@[simp] theorem State.startFrame_cfg (s : State) : s.startFrame.cfg = s.cfg := rfl
@[simp] theorem State.startFrame_events (s : State) : s.startFrame.events = s.events := rfl
@[simp] theorem State.startFrame_results (s : State) : s.startFrame.results = s.results := rfl
@[simp] theorem State.startFrame_cmdq (s : State) : s.startFrame.cmdq = s.cmdq := rfl
@[simp] theorem State.startFrame_rxq (s : State) : s.startFrame.rxq = s.rxq := rfl
@[simp] theorem State.startFrame_phase (s : State) : s.startFrame.phase = s.phase := rfl

/-! ## State.resetTo -/

@[simp] theorem State.resetTo_waiting (s : State) (c : ConfigRegs) : (s.resetTo c).waiting = true := rfl
@[simp] theorem State.resetTo_escPend (s : State) (c : ConfigRegs) : (s.resetTo c).escPend = false := rfl
@[simp] theorem State.resetTo_cnt (s : State) (c : ConfigRegs) : (s.resetTo c).cnt = 0 := rfl
@[simp] theorem State.resetTo_len (s : State) (c : ConfigRegs) : (s.resetTo c).len = 0 := rfl
@[simp] theorem State.resetTo_sum (s : State) (c : ConfigRegs) : (s.resetTo c).sum = 0 := rfl
@[simp] theorem State.resetTo_chk (s : State) (c : ConfigRegs) : (s.resetTo c).chk = 0 := rfl
@[simp] theorem State.resetTo_last (s : State) (c : ConfigRegs) : (s.resetTo c).last = 0 := rfl
@[simp] theorem State.resetTo_rxbuf (s : State) (c : ConfigRegs) : (s.resetTo c).rxbuf = [] := rfl
@[simp] theorem State.resetTo_fid (s : State) (c : ConfigRegs) : (s.resetTo c).fid = 0 := rfl
@[simp] theorem State.resetTo_txbuf (s : State) (c : ConfigRegs) : (s.resetTo c).txbuf = [] := rfl
@[simp] theorem State.resetTo_cfg (s : State) (c : ConfigRegs) : (s.resetTo c).cfg = c := rfl
@[simp] theorem State.resetTo_events (s : State) (c : ConfigRegs) : (s.resetTo c).events = s.events := rfl
@[simp] theorem State.resetTo_results (s : State) (c : ConfigRegs) : (s.resetTo c).results = s.results := rfl
@[simp] theorem State.resetTo_cmdq (s : State) (c : ConfigRegs) : (s.resetTo c).cmdq = s.cmdq := rfl
@[simp] theorem State.resetTo_rxq (s : State) (c : ConfigRegs) : (s.resetTo c).rxq = s.rxq := rfl
@[simp] theorem State.resetTo_phase (s : State) (c : ConfigRegs) : (s.resetTo c).phase = .idle := rfl

/-! ## State.resetFor -/

@[simp] theorem State.resetFor_waiting (P : Parameters) : (State.resetFor P).waiting = true := rfl
@[simp] theorem State.resetFor_escPend (P : Parameters) : (State.resetFor P).escPend = false := rfl
@[simp] theorem State.resetFor_cnt (P : Parameters) : (State.resetFor P).cnt = 0 := rfl
@[simp] theorem State.resetFor_len (P : Parameters) : (State.resetFor P).len = 0 := rfl
@[simp] theorem State.resetFor_sum (P : Parameters) : (State.resetFor P).sum = 0 := rfl
@[simp] theorem State.resetFor_chk (P : Parameters) : (State.resetFor P).chk = 0 := rfl
@[simp] theorem State.resetFor_last (P : Parameters) : (State.resetFor P).last = 0 := rfl
@[simp] theorem State.resetFor_rxbuf (P : Parameters) : (State.resetFor P).rxbuf = [] := rfl
@[simp] theorem State.resetFor_fid (P : Parameters) : (State.resetFor P).fid = 0 := rfl
@[simp] theorem State.resetFor_txbuf (P : Parameters) : (State.resetFor P).txbuf = [] := rfl
@[simp] theorem State.resetFor_cfg (P : Parameters) :
    (State.resetFor P).cfg = ConfigRegs.ofRecord P.cfgInit := rfl
@[simp] theorem State.resetFor_events (P : Parameters) : (State.resetFor P).events = [] := rfl
@[simp] theorem State.resetFor_results (P : Parameters) : (State.resetFor P).results = [] := rfl
@[simp] theorem State.resetFor_cmdq (P : Parameters) : (State.resetFor P).cmdq = [] := rfl
@[simp] theorem State.resetFor_rxq (P : Parameters) : (State.resetFor P).rxq = [] := rfl
@[simp] theorem State.resetFor_phase (P : Parameters) : (State.resetFor P).phase = .idle := rfl

end Sys2Proof.Machine
end

