-- ==== Sys2Proof/Laws/Ops.lean ====
section
/-! SUPPORT. What each shared operation can do, said once: the end of a parser, the end of a serializer, the
interpretation of a received byte. -/

namespace Sys2Proof.Machine

/-! ## The end of a parser (R230, R314) -/

theorem State.decodeFailed_next {s t : State} {e : ParseFail} (h : s.decodeFailed e = .next t) :
    ∃ f, s.frame = some f ∧ t = s.emit (.decodeError e f) := by
  simp only [State.decodeFailed] at h
  split at h
  · rename_i f hf
    exact ⟨f, hf, by cases h; rfl⟩
  · cases h

theorem State.parseFrame_ok (s : State) {x : Parse Message} {c : Cursor} {m : Message}
    (h : x.runOn c = .ok m) : s.parseFrame x c = .next (s.emit (.frameObject m)) := by
  rw [State.parseFrame, h]

theorem State.parseFrame_error {s : State} {x : Parse Message} {c : Cursor} {e : ParseFail}
    {f : List Byte} (h : x.runOn c = .error e) (hf : s.frame = some f) :
    s.parseFrame x c = .next (s.emit (.decodeError e f)) := by
  simp only [State.parseFrame, h, State.decodeFailed, hf]

/-- A parser's end is one event. -/
theorem State.parseFrame_next {s t : State} {x : Parse Message} {c : Cursor}
    (h : s.parseFrame x c = .next t) :
    (∃ m, x.runOn c = .ok m ∧ t = s.emit (.frameObject m)) ∨
      ∃ e f, x.runOn c = .error e ∧ s.frame = some f ∧ t = s.emit (.decodeError e f) := by
  simp only [State.parseFrame] at h
  split at h
  · rename_i m hm
    exact .inl ⟨m, hm, by cases h; rfl⟩
  · rename_i e he
    obtain ⟨f, hf, rfl⟩ := State.decodeFailed_next h
    exact .inr ⟨e, f, he, hf, rfl⟩

theorem State.reportRaw_next {s t : State} (h : s.reportRaw = .next t) :
    ∃ f, s.frame = some f ∧ t = s.emit (.frameRaw f) := by
  simp only [State.reportRaw] at h
  split at h
  · rename_i f hf
    exact ⟨f, hf, by cases h; rfl⟩
  · cases h

/-- A parser appends one event, or hands an AT response to its branch. -/
theorem State.parseWith_next {s t : State} {P : Parameters} {x : Parser} {tag : Byte} {p : List Byte}
    (h : s.parseWith P x tag p = .next t) :
    (∃ m, t = s.emit (.frameObject m)) ∨ (∃ e f, s.frame = some f ∧ t = s.emit (.decodeError e f)) ∨
      ∃ remote m c, t = { s with phase := .atBranch remote m c } := by
  simp only [State.parseWith] at h
  split at h
  · cases h; exact .inl ⟨_, rfl⟩
  · cases h; exact .inr (.inr ⟨_, _, _, rfl⟩)
  · obtain ⟨f, hf, rfl⟩ := State.decodeFailed_next h
    exact .inr (.inl ⟨_, f, hf, rfl⟩)

/-- A parser row appends one event, or hands an AT response to its branch. -/
theorem State.parseRow_next {s t : State} {P : Parameters} {ty : FrameType} {p : List Byte}
    (h : s.parseRow P ty p = .next t) :
    (∃ m, t = s.emit (.frameObject m)) ∨ (∃ e f, s.frame = some f ∧ t = s.emit (.decodeError e f)) ∨
      (∃ f, s.frame = some f ∧ t = s.emit (.frameRaw f)) ∨
      ∃ remote m c, t = { s with phase := .atBranch remote m c } := by
  simp only [State.parseRow] at h
  split at h
  · exact .inr (.inr (.inl (State.reportRaw_next h)))
  · obtain h | h | h := State.parseWith_next h
    · exact .inl h
    · exact .inr (.inl h)
    · exact .inr (.inr (.inr h))

/-! ## The end of a serializer (R181, R189) -/

/-- The three ends of a serializer: too long unescaped, too long escaped, sent. -/
theorem State.transmit_cases (s : State) (d : List Byte) (P : Parameters) :
    (65535 < d.length ∨ s.cfg.txCap.toNat < d.length + 4) ∧
      s.transmit d P = s.emit (.capacityExceeded (d.length + 4)) ∨
    (d.length ≤ 65535 ∧ d.length + 4 ≤ s.cfg.txCap.toNat ∧ s.cfg.escapedMode = true ∧
      s.cfg.txCap.toNat < (escape (frameOf d) P).length) ∧
      s.transmit d P = s.emit (.capacityExceeded (escape (frameOf d) P).length) ∨
    (d.length ≤ 65535 ∧ d.length + 4 ≤ s.cfg.txCap.toNat ∧
      (s.cfg.escapedMode = true → (escape (frameOf d) P).length ≤ s.cfg.txCap.toNat)) ∧
      s.transmit d P = State.answer
        { s with
          txbuf := ((s.txbuf.writeBytes 3 d).writeBytes (3 + d.length) [checksum d]).writeBytes 0
            (Config.startMarker :: be16bytes (BitVec.ofNat 16 d.length)) }
        (.encoded (wireFrame s.cfg d P)) := by
  by_cases h1 : 65535 < d.length ∨ s.cfg.txCap.toNat < d.length + 4
  · exact .inl ⟨h1, by rw [State.transmit, if_pos h1]⟩
  · by_cases h2 : s.cfg.escapedMode = true ∧ s.cfg.txCap.toNat < (escape (frameOf d) P).length
    · exact .inr (.inl ⟨⟨by omega, by omega, h2⟩, by rw [State.transmit, if_neg h1, if_pos h2]⟩)
    · refine .inr (.inr ⟨⟨by omega, by omega, fun h => ?_⟩, by
        rw [State.transmit, if_neg h1, if_neg h2]⟩)
      by_contra h'
      exact h2 ⟨h, by omega⟩

/-- The id a serializer sends, and the state it goes on with. -/
theorem State.assignId_cases (s : State) (ty : FrameType) (id : Option Byte) :
    ty = .createSourceRoute ∧ s.assignId ty id = (0, s) ∨
    ty ≠ .createSourceRoute ∧ ((∃ i, id = some i ∧ s.assignId ty id = (i, s)) ∨
      id = none ∧ s.assignId ty id = (nextFid s.fid, s.advanceFid)) := by
  by_cases h : ty = .createSourceRoute
  · exact .inl ⟨h, by simp only [State.assignId, if_pos h]⟩
  · refine .inr ⟨h, ?_⟩
    cases id with
    | some i => exact .inl ⟨i, rfl, by simp only [State.assignId, if_neg h]⟩
    | none => exact .inr ⟨rfl, by simp only [State.assignId, if_neg h]; rfl⟩

/-- What a serializer transmits: from the state as it is, or with the counter advanced. -/
theorem State.sendFields_cases (s : State) (P : Parameters) (ty : FrameType) (ser : Serializer)
    (m : Message) :
    ∃ u d, (u = s ∨ u = s.advanceFid) ∧ s.sendFields P ty ser m = u.transmit d P := by
  rw [State.sendFields]
  split
  · refine ⟨_, _, ?_, rfl⟩
    obtain ⟨_, e⟩ | ⟨_, ⟨_, _, e⟩ | ⟨_, e⟩⟩ := s.assignId_cases ty m.id <;> rw [e]
    · exact .inl rfl
    · exact .inl rfl
    · exact .inr rfl
  · exact ⟨_, _, .inl rfl, rfl⟩

/-- A serializer does nothing with a message outside its layout's ranges; else it reports that it does not
exist or that a required field is absent, or transmits. -/
theorem State.serialize_cases (s : State) (P : Parameters) (ty : FrameType) (m : Message) :
    (∃ ser, P.encReg ty = some ser ∧ ser.admits m = false ∧ s.serialize P ty m = .next s) ∨
      (∃ e, s.serialize P ty m = .next (s.emit e)) ∨
      ∃ u d, (u = s ∨ u = s.advanceFid) ∧ s.serialize P ty m = .next (u.transmit d P) := by
  simp only [State.serialize]
  split
  · exact .inr (.inl ⟨_, rfl⟩)
  · rename_i ser hser
    split
    · split
      · exact .inr (.inl ⟨_, rfl⟩)
      · obtain ⟨u, d, hu, e⟩ := s.sendFields_cases P ty ser m
        exact .inr (.inr ⟨u, d, hu, by rw [e]⟩)
    · exact .inl ⟨ser, hser, by simpa using ‹¬ser.admits m = true›, rfl⟩

/-- Every serializer answers a next state: it leaves the state, appends an event, or transmits. -/
theorem State.serialize_next {s t : State} {P : Parameters} {ty : FrameType} {m : Message}
    (h : s.serialize P ty m = .next t) :
    t = s ∨ (∃ e, t = s.emit e) ∨ ∃ u d, (u = s ∨ u = s.advanceFid) ∧ t = u.transmit d P := by
  obtain ⟨_, _, _, e⟩ | ⟨x, e⟩ | ⟨u, d, hu, e⟩ := s.serialize_cases P ty m <;> rw [e] at h <;> cases h
  · exact .inl rfl
  · exact .inr (.inl ⟨x, rfl⟩)
  · exact .inr (.inr ⟨u, d, hu, rfl⟩)

/-- The counter never advances to 0 (R182). -/
theorem nextFid_ne_zero (fid : Byte) : nextFid fid ≠ 0 := by
  revert fid; decide

/-! ## The interpretation of a received byte (R306 to R316) -/

/-- A completion as one update. -/
theorem State.complete_eq (s : State) (v : Byte) :
    s.complete v = { s with
      chk := v, waiting := true, len := 0, phase := .emitFrame
      events := s.events ++
        if v = 0xFF - s.sum then [] else [.checksumMismatch v (0xFF - s.sum)] } := by
  cases hc : checksumValid s.sum v with
  | true =>
    have h : v = 0xFF - s.sum := by simpa [checksumValid, expectedChecksum] using hc
    simp only [State.complete, hc, if_true, if_pos h, List.append_nil]
  | false =>
    have h : ¬v = 0xFF - s.sum := by simpa [checksumValid, expectedChecksum] using hc
    simp only [State.complete, hc, if_neg h]
    rfl

/-- The shape of every appended byte: full, or written and interpreted by its offset. -/
theorem State.append_cases (s : State) (v : Byte) :
    s.cfg.rxCap.toNat ≤ s.cnt ∧
      s.append v = State.emit { s with waiting := true } (.capacityExceeded s.cfg.rxCap.toNat) ∨
    s.cnt < s.cfg.rxCap.toNat ∧
      ∃ u : State, u = { s with rxbuf := s.rxbuf.write s.cnt v, cnt := s.cnt + 1 } ∧
        (s.cnt = 0 ∧ s.append v = u ∨
          s.cnt = 1 ∧ s.append v = { u with len := v.setWidth 16 <<< 8 } ∨
          s.cnt = 2 ∧ s.append v = { u with len := s.len + v.setWidth 16 } ∨
          (3 ≤ s.cnt ∧ s.cnt < s.len.toNat + 3) ∧ s.append v = { u with sum := s.sum + v } ∨
          (3 ≤ s.cnt ∧ 0 < s.len.toNat ∧ s.cnt = s.len.toNat + 3) ∧ s.append v = u.complete v ∨
          (3 ≤ s.cnt ∧ s.len.toNat + 3 ≤ s.cnt ∧ (s.len = 0 ∨ s.len.toNat + 3 < s.cnt)) ∧
            s.append v = { u with chk := v }) := by
  by_cases h : s.cnt < s.cfg.rxCap.toNat
  · refine .inr ⟨h, _, rfl, ?_⟩
    simp only [State.append, if_pos h, State.interpret]
    by_cases h0 : s.cnt = 0
    · exact .inl ⟨h0, by rw [if_pos (by omega)]⟩
    refine .inr ?_
    rw [if_neg (by omega)]
    by_cases h1 : s.cnt = 1
    · exact .inl ⟨h1, by rw [if_pos (by omega)]⟩
    refine .inr ?_
    rw [if_neg (by omega)]
    by_cases h2 : s.cnt = 2
    · exact .inl ⟨h2, by rw [if_pos (by omega)]⟩
    refine .inr ?_
    rw [if_neg (by omega)]
    by_cases h3 : s.cnt < s.len.toNat + 3
    · exact .inl ⟨by omega, by rw [if_pos (by omega)]⟩
    refine .inr ?_
    rw [if_neg (by omega)]
    by_cases h4 : 0 < s.len.toNat ∧ s.cnt = s.len.toNat + 3
    · exact .inl ⟨by omega, by rw [if_pos (by omega)]⟩
    refine .inr ⟨⟨by omega, by omega, ?_⟩, by rw [if_neg (by omega)]⟩
    by_cases h5 : s.len = 0
    · exact .inl h5
    · have : s.len.toNat ≠ 0 := fun e => h5 (BitVec.eq_of_toNat_eq e)
      exact .inr (by omega)
  · exact .inl ⟨by omega, by rw [State.append, if_neg h]⟩

end Sys2Proof.Machine
end

