-- ==== Sys2Proof/Laws/Parametric.lean ====
section
/-! SUPPORT. The machine the host runs is the parametric machine at the default parameters; what the lookup of a
tag in a registry can answer. -/

namespace Sys2Proof

/-- The type a tag selects has that tag, and the registry has the type (R122). -/
theorem Parameters.typeOf_some {P : Parameters} {registered : FrameType → Bool} {t : Byte} {ty : FrameType}
    (h : P.typeOf registered t = some ty) :
    registered ty = true ∧ (ty ∈ namedTypes ∧ P.tag ty = t ∨ ty = .unnamed t) := by
  simp only [Parameters.typeOf] at h
  split at h
  · rename_i ty' hf
    cases h
    have h := List.find?_some hf
    simp only [Bool.and_eq_true, beq_iff_eq] at h
    exact ⟨h.2, .inl ⟨List.mem_of_find?_eq_some hf, h.1⟩⟩
  · split at h
    · rename_i hr
      cases h
      exact ⟨hr, .inr rfl⟩
    · cases h

end Sys2Proof

namespace Sys2Proof.Machine

theorem exec_eq_execFor (i : Instr) (s : State) : exec i s = execFor Params.default i s := by
  cases i <;> rfl

theorem step_eq_stepFor (s : State) : step s = stepFor Params.default s := by
  rw [step, stepFor, show exec = execFor Params.default from funext₂ exec_eq_execFor]

/-- The default DEC_REG holds no parser without a row. -/
theorem default_rowlessParser (t : Byte) : Params.default.rowlessParser t = none := by
  have h : ∀ t : Byte, (Params.default.rowlessParser t).isNone = true := by decide
  exact Option.isNone_iff_eq_none.1 (h t)

/-- DEC_UNREGISTERED at the default parameters. -/
theorem exec_decUnregistered (tag : Byte) (p : List Byte) (s : State) :
    exec (.decUnregistered tag p) s = s.reportRaw := by
  simp only [exec, execDecUnregistered, default_rowlessParser, ite_self]

end Sys2Proof.Machine
end

