-- ==== Sys2Proof/Laws/Effects.lean ====
section
/-! SUPPORT. What an instruction of each format can do when it answers a next state, at any parameters;
`exec_eq_execFor` carries each over to `exec`. -/

namespace Sys2Proof.Machine

/-- A decode row or an AT branch appends one event, or hands an AT response to its branch, and changes
nothing else. -/
theorem execFor_decode_next {P : Parameters} {i : Instr} {s t : State}
    (hi : i.format = .frameTagDecode ∨ i.format = .atMnemonic) (h : execFor P i s = .next t) :
    (∃ m, t = s.emit (.frameObject m)) ∨ (∃ e f, s.frame = some f ∧ t = s.emit (.decodeError e f)) ∨
      (∃ f, s.frame = some f ∧ t = s.emit (.frameRaw f)) ∨
      ∃ remote m c, t = { s with phase := .atBranch remote m c } := by
  have row : ∀ {ty : FrameType} {p : List Byte}, s.parseRow P ty p = .next t → _ := fun h =>
    State.parseRow_next h
  have branch : ∀ {x : Parse Message} {c : Cursor}, s.parseFrame x c = .next t → _ := fun h =>
    State.parseFrame_next h
  cases i
  case decUnregistered tag p =>
    simp only [execFor, execDecUnregistered] at h
    split at h
    · exact .inr (.inr (.inl (State.reportRaw_next h)))
    · split at h
      · obtain h | h | h := State.parseWith_next h
        · exact .inl h
        · exact .inr (.inl h)
        · exact .inr (.inr (.inr h))
      · exact .inr (.inr (.inl (State.reportRaw_next h)))
  case atNd | atIsRemote | atOther =>
    simp only [execFor, execAtNd, execAtIsRemote, execAtOther] at h
    obtain ⟨m, _, rfl⟩ | ⟨e, f, _, hf, rfl⟩ := branch h
    · exact .inl ⟨m, rfl⟩
    · exact .inr (.inl ⟨e, f, hf, rfl⟩)
  all_goals first
    | (rcases hi with hi | hi <;> cases hi; done)
    | exact row h

/-- A serializer does nothing, reports one event, or transmits after at most one advance of the counter. -/
theorem execFor_encode_next {P : Parameters} {i : Instr} {s t : State}
    (hi : i.format = .frameTagEncode) (h : execFor P i s = .next t) :
    t = s ∨ (∃ e, t = s.emit e) ∨
      ∃ u d, (u = s ∨ u = s.advanceFid) ∧ t = u.transmit d P := by
  cases i <;> first
    | (cases hi; done)
    | exact State.serialize_next h

/-- ENCODE dispatches its message to a row, or does what a serializer can. -/
theorem execEncode_next {P : Parameters} {m : Message} {s t : State} (h : execEncode m s P = .next t) :
    t = { s with phase := .serialize m } ∨ t = s ∨ (∃ e, t = s.emit e) ∨
      ∃ u d, (u = s ∨ u = s.advanceFid) ∧ t = u.transmit d P := by
  simp only [execEncode] at h
  split at h
  · split at h
    · cases h; exact .inl rfl
    · exact .inr (State.serialize_next h)
  · cases h; exact .inr (.inr (.inl ⟨_, rfl⟩))

/-- No instruction is refused: exec answers a next state or the fault of a frame past RXBUF. -/
theorem execFor_not_refused (P : Parameters) (i : Instr) (s : State) (r : Refusal) :
    execFor P i s ≠ .refused r := by
  intro h
  have failed : ∀ {e : ParseFail}, s.decodeFailed e ≠ .refused r := by
    intro e h; simp only [State.decodeFailed] at h; split at h <;> cases h
  have raw : s.reportRaw ≠ .refused r := by
    intro h; simp only [State.reportRaw] at h; split at h <;> cases h
  have branch : ∀ {x : Parse Message} {c : Cursor}, s.parseFrame x c ≠ .refused r := by
    intro x c h
    simp only [State.parseFrame] at h
    split at h
    · cases h
    · exact failed h
  have parse : ∀ {x : Parser} {tag : Byte} {p : List Byte}, s.parseWith P x tag p ≠ .refused r := by
    intro x tag p h
    simp only [State.parseWith] at h
    split at h
    · cases h
    · cases h
    · exact failed h
  have row : ∀ {ty : FrameType} {p : List Byte}, s.parseRow P ty p ≠ .refused r := by
    intro ty p h
    simp only [State.parseRow] at h
    split at h
    · exact raw h
    · exact parse h
  have enc : ∀ {ty : FrameType} {m : Message}, s.serialize P ty m ≠ .refused r := by
    intro ty m h
    obtain ⟨_, _, _, he⟩ | ⟨_, he⟩ | ⟨_, _, _, he⟩ := s.serialize_cases P ty m <;> rw [he] at h <;> cases h
  cases i <;> first
    | exact row h
    | exact branch h
    | exact raw h
    | exact enc h
    | cases h
    | (simp only [execFor, execReset, execRxData] at h
       split at h <;> cases h)
    | (simp only [execFor, execEncode] at h
       split at h
       · split at h
         · cases h
         · exact enc h
       · cases h)
    | (simp only [execFor, execDecUnregistered] at h
       split at h
       · exact raw h
       · split at h
         · exact parse h
         · exact raw h)

end Sys2Proof.Machine
end

