-- ==== Sys2Proof/Laws/Operands.lean ====
section
/-! SUPPORT. What the assignments of a map leave (spec/42_decoder.md R261, R263), and what each cursor primitive
(R232) can do, said once: it takes a fixed number of bytes, or it fails by truncation where it stands (R233). -/

namespace Sys2Proof

/-! ## Maps (R16, R261, R263) -/

/-- An assignment changes the value of its own name only. -/
theorem ChannelMap.lookup_assign (m : ChannelMap) (name k : Channel) (v : Nat) :
    (m.assign name v).lookup k = if k = name then some v else m.lookup k := by
  induction m with
  | nil =>
    by_cases h : k = name
    · simp [ChannelMap.assign, h]
    · simp [ChannelMap.assign, List.lookup, h, beq_false_of_ne h]
  | cons e m ih =>
    rw [ChannelMap.assign]
    by_cases h : e.1 = name
    · rw [if_pos h]
      by_cases hk : k = name
      · simp [List.lookup, hk]
      · simp [List.lookup, hk, h, beq_false_of_ne hk]
    · rw [if_neg h]
      simp only [List.lookup]
      by_cases hk : k = e.1
      · subst hk; simp [h]
      · rw [beq_false_of_ne hk]; exact ih

/-- An assignment to a name the map does not hold is appended. -/
theorem ChannelMap.assign_append {m : ChannelMap} {name : Channel} (h : name ∉ m.map Prod.fst) (v : Nat) :
    m.assign name v = m ++ [(name, v)] := by
  induction m with
  | nil => rfl
  | cons e m ih =>
    simp only [List.map_cons, List.mem_cons, not_or] at h
    rw [ChannelMap.assign, if_neg (fun he => h.1 he.symm), ih h.2]; rfl

/-- An assignment adds its name unless the map holds it. -/
theorem ChannelMap.names_assign (m : ChannelMap) (name : Channel) (v : Nat) :
    (m.assign name v).map Prod.fst =
      if name ∈ m.map Prod.fst then m.map Prod.fst else m.map Prod.fst ++ [name] := by
  by_cases h : name ∈ m.map Prod.fst
  · rw [if_pos h]
    induction m with
    | nil => simp at h
    | cons e m ih =>
      rw [ChannelMap.assign]
      by_cases he : e.1 = name
      · rw [if_pos he]; simp [he]
      · rw [if_neg he, List.map_cons, List.map_cons]
        simp only [List.map_cons, List.mem_cons] at h
        rw [ih (h.resolve_left fun e' => he e'.symm)]
  · rw [if_neg h, ChannelMap.assign_append h, List.map_append]; rfl

theorem ChannelMap.ofAssignments_append (es : List (Channel × Nat)) (e : Channel × Nat) :
    ChannelMap.ofAssignments (es ++ [e]) = (ChannelMap.ofAssignments es).assign e.1 e.2 := by
  rw [ChannelMap.ofAssignments, List.foldl_append]; rfl

/-- Each name holds the value of its last assignment. -/
theorem ChannelMap.lookup_ofAssignments (es : List (Channel × Nat)) (k : Channel) :
    (ChannelMap.ofAssignments es).lookup k =
      ((es.filter fun e => e.1 == k).getLast?).map Prod.snd := by
  induction es using List.reverseRecOn with
  | nil => rfl
  | append_singleton es e ih =>
    rw [ChannelMap.ofAssignments_append, ChannelMap.lookup_assign, List.filter_append]
    by_cases h : k = e.1
    · simp [h]
    · rw [if_neg h, ih]
      simp [beq_false_of_ne (Ne.symm h)]

/-- Things assigned in their order, some of them unnamed: each name holds the value of the last thing it
names. -/
theorem ChannelMap.lookup_ofAssignments_named {α : Type} (name : α → Option Channel) (value : α → Nat)
    (xs : List α) (k : Channel) :
    (ChannelMap.ofAssignments
        (xs.filterMap fun x => (name x).map fun n => (n, value x))).lookup k =
      ((xs.filter fun x => name x == some k).getLast?).map value := by
  rw [ChannelMap.lookup_ofAssignments]
  induction xs using List.reverseRecOn with
  | nil => rfl
  | append_singleton xs x ih =>
    rw [List.filterMap_append, List.filter_append, List.filter_append]
    cases hn : name x with
    | none => simpa [hn] using ih
    | some n =>
      by_cases h : n = k
      · simp [hn, h]
      · simpa [hn, h] using ih

/-- No name stands twice in the map. -/
theorem ChannelMap.nodup_ofAssignments (es : List (Channel × Nat)) :
    ((ChannelMap.ofAssignments es).map Prod.fst).Nodup := by
  induction es using List.reverseRecOn with
  | nil => exact List.nodup_nil
  | append_singleton es e ih =>
    rw [ChannelMap.ofAssignments_append, ChannelMap.names_assign]
    split
    · exact ih
    · rename_i h
      exact List.nodup_append.2 ⟨ih, List.nodup_singleton _, fun a ha b hb e' => by
        rw [List.mem_singleton] at hb; exact h (hb ▸ e' ▸ ha)⟩

/-- Assignments to different names leave them in their order. -/
theorem ChannelMap.ofAssignments_of_nodup {es : List (Channel × Nat)} (h : (es.map Prod.fst).Nodup) :
    ChannelMap.ofAssignments es = es := by
  induction es using List.reverseRecOn with
  | nil => rfl
  | append_singleton es e ih =>
    rw [List.map_append] at h
    obtain ⟨h1, _, h2⟩ := List.nodup_append.1 h
    rw [ChannelMap.ofAssignments_append, ih h1,
      ChannelMap.assign_append fun he => h2 _ he e.1 (by simp) rfl]

end Sys2Proof

namespace Sys2Proof.Machine

/-! ## Sequencing -/

theorem Parse.pure_apply {α : Type} (a : α) (c : Cursor) : (pure a : Parse α) c = .ok (a, c) := rfl

theorem Parse.bind_ok {α β : Type} {x : Parse α} {f : α → Parse β} {c c' : Cursor} {a : α}
    (h : x c = .ok (a, c')) : (x >>= f) c = f a c' := by
  show (x c >>= fun p => f p.1 p.2) = _
  rw [h]; rfl

theorem Parse.bind_error {α β : Type} {x : Parse α} {f : α → Parse β} {c : Cursor} {e : ParseFail}
    (h : x c = .error e) : (x >>= f) c = .error e := by
  show (x c >>= fun p => f p.1 p.2) = _
  rw [h]; rfl

/-- What a parser made of two answers is the second's answer after the first's. -/
theorem Parse.bind_eq_ok {α β : Type} {x : Parse α} {f : α → Parse β} {c c'' : Cursor} {b : β}
    (h : (x >>= f) c = .ok (b, c'')) : ∃ a c', x c = .ok (a, c') ∧ f a c' = .ok (b, c'') := by
  cases hx : x c with
  | error e => rw [Parse.bind_error hx] at h; cases h
  | ok p => exact ⟨p.1, p.2, rfl, (Parse.bind_ok (f := f) hx) ▸ h⟩

theorem Parse.runOn_ok {α : Type} {x : Parse α} {c c' : Cursor} {a : α} (h : x c = .ok (a, c')) :
    x.runOn c = .ok a := by
  rw [Parse.runOn, h]

theorem Parse.runOn_error {α : Type} {x : Parse α} {c : Cursor} {e : ParseFail} (h : x c = .error e) :
    x.runOn c = .error e := by
  rw [Parse.runOn, h]

/-! ## Big-endian halves -/

/-- The bytes of a half are read back (R84, R86). -/
theorem be16_be16bytes (v : Half) : be16 (v.extractLsb' 8 8) (v.extractLsb' 0 8) = v := by
  apply BitVec.eq_of_getLsbD_eq
  intro i hi
  rw [be16, BitVec.getLsbD_append]
  split
  · rename_i h; simp [h]
  · rename_i h; simp [show i - 8 < 8 by omega, show 8 + (i - 8) = i by omega]

theorem be16bytes_be16 (h l : Byte) : be16bytes (be16 h l) = [h, l] := by
  have h1 : (h ++ l : BitVec 16).extractLsb' 8 8 = h := by
    ext i hi
    simp only [BitVec.getElem_extractLsb', BitVec.getLsbD_append]
    simp [BitVec.getLsbD_eq_getElem hi]
  have h2 : (h ++ l : BitVec 16).extractLsb' 0 8 = l := by
    ext i hi
    simp only [BitVec.getElem_extractLsb', BitVec.getLsbD_append]
    simp [hi]
  simp only [be16bytes, be16, h1, h2]

@[simp] theorem be16bytes_length (v : Half) : (be16bytes v).length = 2 := rfl

@[simp] theorem Addr16.bytes_length (a : Addr16) : a.bytes.length = 2 := rfl

@[simp] theorem Addr64.bytes_length (a : Addr64) : a.bytes.length = 8 := rfl

/-! ## Reading what was written -/

theorem readU8_cons (p : Nat) (b : Byte) (r : List Byte) :
    readU8 ⟨p, b :: r⟩ = .ok (b, ⟨p + 1, r⟩) := rfl

theorem readU16_bytes (p : Nat) (v : Half) (r : List Byte) :
    readU16 ⟨p, be16bytes v ++ r⟩ = .ok (v, ⟨p + 2, r⟩) := by
  show Except.ok (be16 _ _, _) = _
  rw [be16_be16bytes]; rfl

theorem readA16_bytes (p : Nat) (a : Addr16) (r : List Byte) :
    readA16 ⟨p, a.bytes ++ r⟩ = .ok (a, ⟨p + 2, r⟩) := rfl

theorem readA64_bytes (p : Nat) (a : Addr64) (r : List Byte) :
    readA64 ⟨p, a.bytes ++ r⟩ = .ok (a, ⟨p + 8, r⟩) := rfl

theorem readAscii2_bytes (p : Nat) (a : Ascii2) (r : List Byte) :
    readAscii2 ⟨p, a.bytes ++ r⟩ = .ok (a, ⟨p + 2, r⟩) := rfl

theorem readRest_eq (p : Nat) (r : List Byte) : readRest ⟨p, r⟩ = .ok (r, ⟨p + r.length, []⟩) := rfl

theorem remaining_eq (p : Nat) (r : List Byte) : remaining ⟨p, r⟩ = .ok (r.length, ⟨p, r⟩) := rfl

/-- Bytes without a NUL, then a NUL, split at it. -/
theorem splitNul_append {v : List Byte} (h : (0 : Byte) ∉ v) (r : List Byte) :
    splitNul (v ++ 0 :: r) = some (v, r) := by
  induction v with
  | nil => simp [splitNul]
  | cons b v ih =>
    simp only [List.mem_cons, not_or] at h
    rw [List.cons_append, splitNul, if_neg (fun e => h.1 e.symm), ih h.2]

theorem readCStr_append (p : Nat) {v : List Byte} (h : (0 : Byte) ∉ v) (r : List Byte) :
    readCStr ⟨p, v ++ 0 :: r⟩ = .ok (v, ⟨p + v.length + 1, r⟩) := by
  simp only [readCStr, splitNul_append h]

theorem readU16s_flatMap (p : Nat) (vs : List Half) (r : List Byte) :
    readU16s vs.length ⟨p, vs.flatMap be16bytes ++ r⟩ = .ok (vs, ⟨p + 2 * vs.length, r⟩) := by
  induction vs generalizing p with
  | nil => rfl
  | cons v vs ih =>
    rw [List.length_cons, readU16s, List.flatMap_cons, List.append_assoc,
      Parse.bind_ok (readU16_bytes p v _), Parse.bind_ok (ih (p + 2)), Parse.pure_apply]
    congr 3; omega

/-! ## Truncation -/

/-- A parser that takes exactly `n` bytes, or fails by truncation where it stands. -/
def Parse.Takes {α : Type} (x : Parse α) (n : Nat) : Prop :=
  ∀ c : Cursor, (c.rest.length < n → x c = .error (.truncated c.pos)) ∧
    (n ≤ c.rest.length → ∃ a, x c = .ok (a, ⟨c.pos + n, c.rest.drop n⟩))

/-- A parser whose first fields have these widths, which fails every shorter payload at the start of the
first field that the payload does not hold whole. -/
def Parse.Cuts {α : Type} (x : Parse α) (widths : List Nat) : Prop :=
  ∀ c : Cursor, c.rest.length < widths.sum →
    x c = .error (.truncated (c.pos + cutAt widths c.rest.length))

theorem Parse.Cuts.nil {α : Type} (x : Parse α) : x.Cuts [] := fun c hc => by simp at hc

theorem Parse.Cuts.bind_left {α β : Type} {x : Parse α} {f : α → Parse β} {ws : List Nat}
    (hx : x.Cuts ws) : Parse.Cuts (x >>= f) ws := fun c hc => Parse.bind_error (hx c hc)

/-- A parser after one that takes `n` bytes. -/
theorem Parse.Takes.bind_cuts {α β : Type} {x : Parse α} {f : α → Parse β} {n : Nat} {ws : List Nat}
    (hx : x.Takes n) (hf : ∀ a, (f a).Cuts ws) : Parse.Cuts (x >>= f) (n :: ws) := fun c hc => by
  rw [List.sum_cons] at hc
  rw [cutAt]
  by_cases h : c.rest.length < n
  · rw [if_pos h]
    exact Parse.bind_error ((hx c).1 h)
  · obtain ⟨a, ha⟩ := (hx c).2 (by omega)
    rw [if_neg h, Parse.bind_ok ha, hf a _ (by rw [List.length_drop]; omega), List.length_drop,
      Nat.add_assoc]

theorem readU8_takes : readU8.Takes 1 := by
  rintro ⟨p, _ | ⟨b, r⟩⟩
  · exact ⟨fun _ => rfl, fun h => by simp at h⟩
  · exact ⟨fun h => by simp at h, fun _ => ⟨b, rfl⟩⟩

theorem readU16_takes : readU16.Takes 2 := by
  rintro ⟨p, _ | ⟨b, _ | ⟨c, r⟩⟩⟩
  · exact ⟨fun _ => rfl, fun h => by simp at h⟩
  · exact ⟨fun _ => rfl, fun h => by simp at h⟩
  · exact ⟨fun h => by simp at h, fun _ => ⟨be16 b c, rfl⟩⟩

theorem readA16_takes : readA16.Takes 2 := by
  rintro ⟨p, _ | ⟨b, _ | ⟨c, r⟩⟩⟩
  · exact ⟨fun _ => rfl, fun h => by simp at h⟩
  · exact ⟨fun _ => rfl, fun h => by simp at h⟩
  · exact ⟨fun h => by simp at h, fun _ => ⟨⟨b, c⟩, rfl⟩⟩

theorem readAscii2_takes : readAscii2.Takes 2 := by
  rintro ⟨p, _ | ⟨b, _ | ⟨c, r⟩⟩⟩
  · exact ⟨fun _ => rfl, fun h => by simp at h⟩
  · exact ⟨fun _ => rfl, fun h => by simp at h⟩
  · exact ⟨fun h => by simp at h, fun _ => ⟨⟨b, c⟩, rfl⟩⟩

theorem readA64_takes : readA64.Takes 8 := by
  rintro ⟨p, _ | ⟨a0, _ | ⟨a1, _ | ⟨a2, _ | ⟨a3, _ | ⟨a4, _ | ⟨a5, _ | ⟨a6, _ | ⟨a7, r⟩⟩⟩⟩⟩⟩⟩⟩⟩
  case cons.cons.cons.cons.cons.cons.cons.cons =>
    exact ⟨fun h => by simp at h; omega, fun _ => ⟨⟨a0, a1, a2, a3, a4, a5, a6, a7⟩, rfl⟩⟩
  all_goals exact ⟨fun _ => rfl, fun h => by simp at h⟩

theorem splitNul_none {v : List Byte} (h : (0 : Byte) ∉ v) : splitNul v = none := by
  induction v with
  | nil => rfl
  | cons b v ih =>
    simp only [List.mem_cons, not_or] at h
    rw [splitNul, if_neg (fun e => h.1 e.symm), ih h.2]

/-- A string without a NUL fails where it starts. -/
theorem readCStr_error (p : Nat) {v : List Byte} (h : (0 : Byte) ∉ v) :
    readCStr ⟨p, v⟩ = .error (.truncated p) := by
  simp only [readCStr, splitNul_none h]

/-- Consecutive halves fail at the first that is cut. -/
theorem readU16s_error (n : Nat) (c : Cursor) (h : c.rest.length < 2 * n) :
    readU16s n c = .error (.truncated (c.pos + 2 * (c.rest.length / 2))) := by
  induction n generalizing c with
  | zero => omega
  | succ n ih =>
    rw [readU16s]
    by_cases h2 : c.rest.length < 2
    · rw [Parse.bind_error ((readU16_takes c).1 h2)]
      congr 2; omega
    · obtain ⟨v, hv⟩ := (readU16_takes c).2 (by omega)
      rw [Parse.bind_ok hv, Parse.bind_error (ih _ (by rw [List.length_drop]; omega)),
        List.length_drop]
      congr 2; dsimp only; omega

end Sys2Proof.Machine
end

