-- ==== Sys2Proof/Laws/PerInstr.lean ====
section
/-! SUPPORT. The per-instruction family of LAWS.json: an instruction's item is of its own format. -/

namespace Sys2Proof.Laws.FormatKept

/-- The item an instruction is encoded as stands in the format of the instruction's row. -/
def Statement (i : Instr) : Prop := (encode i).format = i.format

theorem feed (chunk : List Byte) : Statement (.feed chunk) := rfl
theorem encode (m : Message) : Statement (.encode m) := rfl
theorem nextFrameId : Statement .nextFrameId := rfl
theorem reset (cfg : ConfigRecord) : Statement (.reset cfg) := rfl
theorem illegalCommand (code : Byte) : Statement (.illegalCommand code) := rfl
theorem rxStart : Statement .rxStart := rfl
theorem rxEsc : Statement .rxEsc := rfl
theorem rxData (b : Byte) : Statement (.rxData b) := rfl
theorem encAtCommand (id : Option Byte) (command : Option Ascii2) (rest : Message) :
    Statement (.encAtCommand id command rest) := rfl
theorem encAtCommandQueueParameterValue (id : Option Byte) (command : Option Ascii2) (rest : Message) :
    Statement (.encAtCommandQueueParameterValue id command rest) := rfl
theorem encRemoteAtCommandRequest (id : Option Byte) (destination64 : Option Addr64)
    (destination16 : Option Addr16) (remoteCommandOptions : Option Byte) (command : Option Ascii2)
    (rest : Message) :
    Statement (.encRemoteAtCommandRequest id destination64 destination16 remoteCommandOptions command
      rest) := rfl
theorem encZigbeeTransmitRequest (id : Option Byte) (destination64 : Option Addr64)
    (destination16 : Option Addr16) (broadcastRadius options : Option Byte) (rest : Message) :
    Statement (.encZigbeeTransmitRequest id destination64 destination16 broadcastRadius options rest) := rfl
theorem encExplicitAddressingZigbeeCommandFrame (id : Option Byte) (destination64 : Option Addr64)
    (destination16 : Option Addr16) (sourceEndpoint destinationEndpoint : Option Byte)
    (clusterId profileId : Option Id16) (broadcastRadius options : Option Byte) (rest : Message) :
    Statement (.encExplicitAddressingZigbeeCommandFrame id destination64 destination16 sourceEndpoint
      destinationEndpoint clusterId profileId broadcastRadius options rest) := rfl
theorem encTxRequest64 (id : Option Byte) (destination64 : Option Addr64) (options : Option Byte)
    (rest : Message) :
    Statement (.encTxRequest64 id destination64 options rest) := rfl
theorem encTxRequest16 (id : Option Byte) (destination16 : Option Addr16) (options : Option Byte)
    (rest : Message) :
    Statement (.encTxRequest16 id destination16 options rest) := rfl
theorem encCreateSourceRoute (id : Option Byte) (destination64 : Option Addr64)
    (destination16 : Option Addr16) (rest : Message) :
    Statement (.encCreateSourceRoute id destination64 destination16 rest) := rfl
theorem decAtCommandResponse (p : List Byte) : Statement (.decAtCommandResponse p) := rfl
theorem decRemoteCommandResponse (p : List Byte) : Statement (.decRemoteCommandResponse p) := rfl
theorem decModemStatus (p : List Byte) : Statement (.decModemStatus p) := rfl
theorem decZigbeeTransmitStatus (p : List Byte) : Statement (.decZigbeeTransmitStatus p) := rfl
theorem decZigbeeReceivePacket (p : List Byte) : Statement (.decZigbeeReceivePacket p) := rfl
theorem decZigbeeExplicitRx (p : List Byte) : Statement (.decZigbeeExplicitRx p) := rfl
theorem decZigbeeIoDataSampleRx (p : List Byte) : Statement (.decZigbeeIoDataSampleRx p) := rfl
theorem decXbeeSensorRead (p : List Byte) : Statement (.decXbeeSensorRead p) := rfl
theorem decNodeIdentification (p : List Byte) : Statement (.decNodeIdentification p) := rfl
theorem decRouteRecord (p : List Byte) : Statement (.decRouteRecord p) := rfl
theorem decRxPacket64 (p : List Byte) : Statement (.decRxPacket64 p) := rfl
theorem decRxPacket16 (p : List Byte) : Statement (.decRxPacket16 p) := rfl
theorem decRxPacket64Io (p : List Byte) : Statement (.decRxPacket64Io p) := rfl
theorem decRxPacket16Io (p : List Byte) : Statement (.decRxPacket16Io p) := rfl
theorem decTxStatus (p : List Byte) : Statement (.decTxStatus p) := rfl
theorem decAtCommand (p : List Byte) : Statement (.decAtCommand p) := rfl
theorem decAtCommandQueueParameterValue (p : List Byte) :
    Statement (.decAtCommandQueueParameterValue p) := rfl
theorem decRemoteAtCommandRequest (p : List Byte) :
    Statement (.decRemoteAtCommandRequest p) := rfl
theorem decZigbeeTransmitRequest (p : List Byte) : Statement (.decZigbeeTransmitRequest p) := rfl
theorem decExplicitAddressingZigbeeCommandFrame (p : List Byte) :
    Statement (.decExplicitAddressingZigbeeCommandFrame p) := rfl
theorem decTxRequest64 (p : List Byte) : Statement (.decTxRequest64 p) := rfl
theorem decTxRequest16 (p : List Byte) : Statement (.decTxRequest16 p) := rfl
theorem decUnregistered (tag : Byte) (p : List Byte) : Statement (.decUnregistered tag p) := rfl
theorem atNd (head : AtHead) (rest : Cursor) : Statement (.atNd head rest) := rfl
theorem atIsRemote (head : AtHead) (status : Option Byte) (rest : Cursor) :
    Statement (.atIsRemote head status rest) := rfl
theorem atOther (head : AtHead) (command : Option Ascii2) (status : Option Byte) (rest : Cursor) :
    Statement (.atOther head command status rest) := rfl

end Sys2Proof.Laws.FormatKept
end

