-- ==== Sys2Proof/Laws/Run.lean ====
section
/-! SUPPORT. Runs of the machine, in terms of `step`. -/

namespace Sys2Proof.Machine

/-- A run of any machine whose first step answers a next state. -/
theorem core_run_succ {M : Host.Core} {s u : M.State} (k : Nat) (h : M.step s = .next u) :
    M.run (k + 1) s = M.run k u := by
  simp only [Host.Core.run, h]

/-- Runs of any machine compose. -/
theorem core_run_add {M : Host.Core} {n : Nat} (m : Nat) {s t : M.State} (h : M.run n s = .next t) :
    M.run (n + m) s = M.run m t := by
  induction n generalizing s with
  | zero => cases h; rw [Nat.zero_add]
  | succ n ih =>
    simp only [Host.Core.run] at h
    cases hs : M.step s with
    | next u =>
      rw [hs] at h
      rw [Nat.add_right_comm, core_run_succ _ hs]
      exact ih h
    | fault r => rw [hs] at h; cases h
    | refused r => rw [hs] at h; cases h

theorem run_zero (s : State) : run 0 s = .next s := rfl

theorem run_succ {s u : State} (k : Nat) (h : step s = .next u) : run (k + 1) s = run k u :=
  core_run_succ k h

theorem run_add {n : Nat} (m : Nat) {s t : State} (h : run n s = .next t) : run (n + m) s = run m t :=
  core_run_add m h

end Sys2Proof.Machine
end

