-- ==== Sys2Proof/Tests/Slice0.lean ====
section
/-! SUPPORT. The model's own tests. Expected values come from spec/95_test_vectors.md (by its ids) and
from the worked examples of the rules named in the comments. The witnesses at the end show that the
hypotheses of each statement can be met. -/

namespace Sys2Proof.Tests

open Sys2Proof Sys2Proof.Machine

/-! ## Helpers -/

def after (o : Host.Outcome State Fault Refusal) : Option State :=
  match o with
  | .next t => some t
  | .fault _ => none
  | .refused _ => none

/-- A completed frame with this frame data stands in RXBUF and is to be emitted. -/
def framed (d : List Byte) : State :=
  { State.reset with
    phase := .emitFrame, cnt := d.length + 4, rxbuf := Memory.writeBytes [] 0 (frameBytes d) }

/-- The events of the one step that emits a frame. -/
def emitted (d : List Byte) : Option (List Event) := (after (step (framed d))).map (·.events)

/-- The state after the one step of an ENCODE command. -/
def sending (s : State) (m : Message) : Option State :=
  after (step { s with cmdq := [{ code := 0x02, message := m }] })

/-- What an ENCODE returns. -/
def sent (s : State) (m : Message) : Option (List Result) := (sending s m).map (·.results)

/-- The events of an ENCODE. -/
def raised (s : State) (m : Message) : Option (List Event) := (sending s m).map (·.events)

/-- The state after the one step of a received byte. -/
def receiving (s : State) (b : Byte) : Option State := after (step { s with rxq := [b] })

/-- The scanner after some bytes, by the spec's RxStep. -/
def scanned (s : State) (bs : List Byte) : State := bs.foldl (fun t b => refRxStep b t) s

def mode2 : State := { State.reset with cfg := { State.reset.cfg with apiMode := 2 } }

/-- A state with small buffers: RX_CAP = TX_CAP = 8. -/
def small : State := { State.reset with cfg := { State.reset.cfg with rxCap := 8, txCap := 8 } }

def raw : State := { State.reset with cfg := { State.reset.cfg with rawFrames := true } }

def a64 : Addr64 := ⟨0x00, 0x13, 0xA2, 0x00, 0x40, 0x52, 0x2B, 0xAA⟩
def a16 : Addr16 := ⟨0x7D, 0x84⟩
def aa : List Byte := a64.bytes ++ a16.bytes
def d64 : Addr64 := ⟨0x00, 0x13, 0xA2, 0x00, 0x40, 0x0A, 0x01, 0x27⟩
def nj : Ascii2 := ⟨0x4E, 0x4A⟩
def ni : Ascii2 := ⟨0x4E, 0x49⟩
def hi : List Byte := [0x48, 0x69]

/-- AT responses parsed up to their branch: a local `ND` and `NJ`, a remote `IS`. -/
def nd : Message := { type := 0x88, id := some 1, command := some ⟨0x4E, 0x44⟩,
                      commandStatus := some 0 }
def nj88 : Message := { nd with command := some nj }
def is97 : Message :=
  { type := 0x97, id := some 2, remote64 := some a64, remote16 := some a16,
    command := some ⟨0x49, 0x53⟩, commandStatus := some 0 }

/-! ## Ill-formed terms, one for each check -/

theorem test_wf_refuses_known_code : (Instr.illegalCommand 0x01).wellFormed = false ∧
    (Instr.illegalCommand 0x04).wellFormed = false ∧
    (Instr.illegalCommand 0x05).wellFormed = true := by decide

theorem test_wf_refuses_256_addresses (rs : List Half) (h : rs.length = 256) :
    (Instr.encCreateSourceRoute none none none { type := 0x21, addresses := some rs }).wellFormed = false ∧
    (Instr.encode { type := 0x21, addresses := some rs }).wellFormed = false := by
  have tag : Params.default.serializerType 0x21 = some .createSourceRoute := by decide
  have range : inLayoutRange Params.default .createSourceRoute
      { type := 0x21, addresses := some rs } = false := by
    simp [inLayoutRange, Params.default, defaultSerializer, serializeCreateSourceRoute, h]
  exact ⟨by simp only [Instr.wellFormed, selectsSerializer, range, Bool.and_false, Bool.false_and],
    by simp only [Instr.wellFormed, tag, range, Option.all_some]⟩

/-- A message of another row's tag, and a tag without a parser at the parameters. -/
theorem test_wf_refuses_other_tag :
    (Instr.encAtCommand none none { type := 0x09 }).wellFormed = false ∧
    (Instr.encAtCommand none none { type := 0x08 }).wellFormed = true ∧
    (Instr.decTxStatus []).wellFormed { Params.default with decReg := fun _ => none } = false := by
  decide

/-- A field that stands among a row's own operands is not in its `rest` too. -/
theorem test_wf_refuses_a_field_given_twice :
    (Instr.encAtCommand none none { type := 0x08, command := some nj }).wellFormed = false ∧
    (Instr.encAtCommand none (some nj) { type := 0x08, data := some [] }).wellFormed = true ∧
    (Instr.encTxRequest16 none (some ⟨1, 2⟩) none { type := 0x01, options := some 0 }).wellFormed = false ∧
    (Instr.encCreateSourceRoute none none none { type := 0x21, id := some 0 }).wellFormed = false := by
  decide

/-- The rows whose operand is a payload. -/
def payloadRows : List (List Byte → Instr) :=
  [.decAtCommandResponse, .decRemoteCommandResponse, .decModemStatus, .decZigbeeTransmitStatus,
   .decZigbeeReceivePacket, .decZigbeeExplicitRx, .decZigbeeIoDataSampleRx, .decXbeeSensorRead,
   .decNodeIdentification, .decRouteRecord, .decRxPacket64, .decRxPacket16, .decRxPacket64Io,
   .decRxPacket16Io, .decTxStatus, .decAtCommand, .decAtCommandQueueParameterValue,
   .decRemoteAtCommandRequest, .decZigbeeTransmitRequest, .decExplicitAddressingZigbeeCommandFrame,
   .decTxRequest64, .decTxRequest16, .decUnregistered 0x55]

theorem test_wf_refuses_long_payload (p : List Byte) :
    (p.length = 65535 → ∀ row ∈ payloadRows, (row p).wellFormed = false) ∧
    (p.length = 65534 → ∀ row ∈ payloadRows, (row p).wellFormed = true) := by
  refine ⟨fun h => ?_, fun h => ?_⟩
  · simp [payloadRows, Instr.wellFormed, h]
  · simp [payloadRows, Instr.wellFormed, h]
    decide

/-- The heads the fixed fields leave for `nj88` and `is97` (the message without the fields a row takes). -/
def otherHead : AtHead := ⟨false, { nj88 with command := none, commandStatus := none }⟩
def isHead : AtHead := ⟨true, { is97 with commandStatus := none }⟩

theorem test_wf_refuses_long_at_payload (p : List Byte) (h : p.length = 65531) :
    (Instr.atNd ⟨false, nd⟩ ⟨4, p⟩).wellFormed = false ∧
    (Instr.atOther otherHead (some nj) (some 0) ⟨4, p⟩).wellFormed = false ∧
    (Instr.atIsRemote isHead (some 0) ⟨14, p⟩).wellFormed = false := by
  simp [Instr.wellFormed, h]

theorem test_wf_refuses_empty_nd : (Instr.atNd ⟨false, nd⟩ ⟨4, []⟩).wellFormed = false ∧
    (Instr.atNd ⟨false, nd⟩ ⟨4, [0x7D]⟩).wellFormed = true := by decide

theorem test_wf_refuses_wrong_mnemonic :
    (Instr.atIsRemote { isHead with message := nd } (some 0) ⟨14, []⟩).wellFormed = false ∧
    (Instr.atIsRemote isHead (some 0) ⟨14, []⟩).wellFormed = true ∧
    (Instr.atNd ⟨false, nj88⟩ ⟨4, [0x7D]⟩).wellFormed = false := by decide

theorem test_wf_refuses_other_of_a_branch :
    (Instr.atOther otherHead (some ⟨0x4E, 0x44⟩) (some 0) ⟨4, [0x7D]⟩).wellFormed = false ∧
    (Instr.atOther { otherHead with remote := true } (some ⟨0x49, 0x53⟩) (some 0)
      ⟨14, []⟩).wellFormed = false ∧
    (Instr.atOther otherHead (some ⟨0x49, 0x53⟩) (some 0) ⟨4, []⟩).wellFormed = true := by decide

/-! ## Decoding: words written out from the spec's encodings, one for each row -/

theorem test_decode_commands :
    decode (.command { code := 0x01, chunk := [0x7E] }) = .ok (.feed [0x7E]) ∧
    decode (.command { code := 0x02, message := { type := 0x08 } }) = .ok (.encode { type := 0x08 }) ∧
    decode (.command { code := 0x03 }) = .ok .nextFrameId ∧
    decode (.command { code := 0x04, config := Params.cfgInit }) = .ok (.reset Params.cfgInit) ∧
    decode (.command { code := 0x05 }) = .ok (.illegalCommand 0x05) ∧
    decode (.command { code := 0x00 }) = .ok (.illegalCommand 0x00) := by
  simp [decode, decodeCommand]

/-- R121, with the cases of Q22, Q10, Q11 and Q7. -/
theorem test_decode_received_bytes :
    decode (.rxByte ⟨false, true, false⟩ 0x7E) = .ok .rxStart ∧
    decode (.rxByte ⟨true, true, true⟩ 0x7E) = .ok .rxStart ∧
    decode (.rxByte ⟨true, false, false⟩ 0x7E) = .ok .rxStart ∧
    decode (.rxByte ⟨true, false, true⟩ 0x7E) = .ok (.rxData 0x7E) ∧
    decode (.rxByte ⟨false, false, false⟩ 0x7E) = .ok (.rxData 0x7E) ∧
    decode (.rxByte ⟨true, true, false⟩ 0x7D) = .ok .rxEsc ∧
    decode (.rxByte ⟨true, false, true⟩ 0x7D) = .ok .rxEsc ∧
    decode (.rxByte ⟨false, false, false⟩ 0x7D) = .ok (.rxData 0x7D) := ⟨rfl, rfl, rfl, rfl, rfl,
      rfl, rfl, rfl⟩

/-- The tags of R124, encode direction. -/
theorem test_decode_messages :
    decode (.message { type := 0x08, command := some nj, commandParameter := some [1] }) =
      .ok (.encAtCommand none (some nj) { type := 0x08, commandParameter := some [1] }) ∧
    decode (.message { type := 0x09, id := some 7 }) =
      .ok (.encAtCommandQueueParameterValue (some 7) none { type := 0x09 }) ∧
    decode (.message { type := 0x17, remoteCommandOptions := some 2 }) =
      .ok (.encRemoteAtCommandRequest none none none (some 2) none { type := 0x17 }) ∧
    decode (.message { type := 0x10, broadcastRadius := some 3, options := some 4 }) =
      .ok (.encZigbeeTransmitRequest none none none (some 3) (some 4) { type := 0x10 }) ∧
    decode (.message { type := 0x11, sourceEndpoint := some 5, destinationEndpoint := some 6 }) =
      .ok (.encExplicitAddressingZigbeeCommandFrame none none none (some 5) (some 6) none none none none
        { type := 0x11 }) ∧
    decode (.message { type := 0x00, data := some [8] }) =
      .ok (.encTxRequest64 none none none { type := 0x00, data := some [8] }) ∧
    decode (.message { type := 0x01, destination16 := some a16 }) =
      .ok (.encTxRequest16 none (some a16) none { type := 0x01 }) ∧
    decode (.message { type := 0x21, addresses := some [9] }) =
      .ok (.encCreateSourceRoute none none none { type := 0x21, addresses := some [9] }) ∧
    decode (.message { type := 0x8A }) = .error (.noSerializer 0x8A) :=
  ⟨rfl, rfl, rfl, rfl, rfl, rfl, rfl, rfl, rfl⟩

/-- The tags of R124, decode direction; 0x21 and 0x55 have no parser. -/
theorem test_decode_frames :
    decode (.frame false [0x88, 1]) = .ok (.decAtCommandResponse [1]) ∧
    decode (.frame false [0x97, 1]) = .ok (.decRemoteCommandResponse [1]) ∧
    decode (.frame false [0x8A, 1]) = .ok (.decModemStatus [1]) ∧
    decode (.frame false [0x8B, 1]) = .ok (.decZigbeeTransmitStatus [1]) ∧
    decode (.frame false [0x90, 1]) = .ok (.decZigbeeReceivePacket [1]) ∧
    decode (.frame false [0x91, 1]) = .ok (.decZigbeeExplicitRx [1]) ∧
    decode (.frame false [0x92, 1]) = .ok (.decZigbeeIoDataSampleRx [1]) ∧
    decode (.frame false [0x94, 1]) = .ok (.decXbeeSensorRead [1]) ∧
    decode (.frame false [0x95, 1]) = .ok (.decNodeIdentification [1]) ∧
    decode (.frame false [0xA1, 1]) = .ok (.decRouteRecord [1]) ∧
    decode (.frame false [0x80, 1]) = .ok (.decRxPacket64 [1]) ∧
    decode (.frame false [0x81, 1]) = .ok (.decRxPacket16 [1]) ∧
    decode (.frame false [0x82, 1]) = .ok (.decRxPacket64Io [1]) ∧
    decode (.frame false [0x83, 1]) = .ok (.decRxPacket16Io [1]) ∧
    decode (.frame false [0x89, 1]) = .ok (.decTxStatus [1]) ∧
    decode (.frame false [0x08, 1]) = .ok (.decAtCommand [1]) ∧
    decode (.frame false [0x09, 1]) = .ok (.decAtCommandQueueParameterValue [1]) ∧
    decode (.frame false [0x17, 1]) = .ok (.decRemoteAtCommandRequest [1]) ∧
    decode (.frame false [0x10, 1]) = .ok (.decZigbeeTransmitRequest [1]) ∧
    decode (.frame false [0x11, 1]) = .ok (.decExplicitAddressingZigbeeCommandFrame [1]) ∧
    decode (.frame false [0x00, 1]) = .ok (.decTxRequest64 [1]) ∧
    decode (.frame false [0x01, 1]) = .ok (.decTxRequest16 [1]) ∧
    decode (.frame false [0x21, 1]) = .ok (.decUnregistered 0x21 [1]) ∧
    decode (.frame false [0x55]) = .ok (.decUnregistered 0x55 []) ∧
    decode (.frame true [0x88, 1]) = .ok (.decUnregistered 0x88 [1]) ∧
    decode (.frame false []) = .error .noTag :=
  ⟨rfl, rfl, rfl, rfl, rfl, rfl, rfl, rfl, rfl, rfl, rfl, rfl, rfl, rfl, rfl, rfl, rfl, rfl, rfl, rfl,
   rfl, rfl, rfl, rfl, rfl, rfl⟩

/-- The mnemonics of R127: `ND` is 4E 44, `IS` is 49 53. -/
theorem test_decode_mnemonics :
    decode (.atBranch false nd ⟨4, [0x7D]⟩) = .ok (.atNd ⟨false, nd⟩ ⟨4, [0x7D]⟩) ∧
    decode (.atBranch true nd ⟨14, [0x7D]⟩) = .ok (.atNd ⟨true, nd⟩ ⟨14, [0x7D]⟩) ∧
    decode (.atBranch false { nd with commandStatus := some 1 } ⟨4, [0x7D]⟩) =
      .ok (.atOther otherHead (some ⟨0x4E, 0x44⟩) (some 1) ⟨4, [0x7D]⟩) ∧
    decode (.atBranch false nj88 ⟨4, []⟩) = .ok (.atOther otherHead (some nj) (some 0) ⟨4, []⟩) ∧
    decode (.atBranch true is97 ⟨14, []⟩) = .ok (.atIsRemote isHead (some 0) ⟨14, []⟩) ∧
    decode (.atBranch false is97 ⟨4, []⟩) =
      .ok (.atOther ⟨false, { is97 with command := none, commandStatus := none }⟩ (some ⟨0x49, 0x53⟩)
        (some 0) ⟨4, []⟩) :=
  ⟨rfl, rfl, rfl, rfl, rfl, rfl⟩

/-- Words of spec/opcode_table.json as the host gives them. -/
theorem test_table_words :
    decodeTableWord 8 0x03 = some .nextFrameId ∧ decodeTableWord 8 0x7E = some .rxStart ∧
    decodeTableWord 8 0x7D = some .rxEsc ∧
    decodeTableWord 8 0x8A = some (.decModemStatus (List.replicate 48 0)) ∧
    decodeTableWord 16 0x4E44 =
      some (.atNd ⟨true, zeroResponse ⟨0x4E, 0x44⟩⟩ ⟨14, List.replicate 48 0⟩) ∧
    decodeTableWord 16 0x4953 =
      some (.atIsRemote ⟨true, { zeroResponse ⟨0x49, 0x53⟩ with commandStatus := none }⟩ (some 0)
        ⟨14, List.replicate 48 0⟩) :=
  ⟨rfl, rfl, rfl, rfl, rfl, rfl⟩

/-- The first step from reset runs the placed word. -/
theorem test_fetch_word_runs :
    (after (step (State.reset.withFetchWord 8 0x03))).map (·.results) = some [.frameId 1] ∧
    (after (step (State.reset.withFetchWord 8 0x7E))).map (·.cnt) = some 1 ∧
    (after (step (State.reset.withFetchWord 8 0x8A))).map (·.events) =
      some [.frameObject { type := 0x8A, modemStatus := some 0 }] := by decide

/-! ## Power-up, host commands -/

/-- R420, R52: the reset values, and both memories in canonical form. -/
theorem test_reset_values :
    State.reset.waiting = true ∧ State.reset.cnt = 0 ∧ State.reset.fid = 0 ∧
    State.reset.cfg.rxCap = 512 ∧ State.reset.cfg.vrefAdc = 1200 ∧ State.reset.memoryWf := by
  refine ⟨by decide, by decide, by decide, by decide, by decide, ?_⟩
  constructor <;> simp [State.reset, State.resetFor, Memory.wf]

/-- H1: an empty FEED changes nothing. -/
theorem test_feed_empty :
    after (step { State.reset with cmdq := [{ code := 0x01 }] }) = some State.reset := by decide

/-- A FEED hands over its bytes; the next step takes the first. -/
theorem test_feed_then_byte :
    (after (run 2 { State.reset with cmdq := [{ code := 0x01, chunk := [0x7E, 0x00] }] })).map
      (fun t => (t.cnt, t.rxq)) = some (1, [0x00]) := by decide

/-- E5, first and last results: 0 goes to 1, 255 wraps to 1. -/
theorem test_next_frame_id :
    (after (exec .nextFrameId State.reset)).map (·.results) = some [.frameId 1] ∧
    (after (exec .nextFrameId { State.reset with fid := 255 })).map (·.results) =
      some [.frameId 1] := by decide

/-- H2: a legal record discards the partial frame. -/
theorem test_reset_discards_partial_frame :
    after (exec (.reset ⟨2, 0, 1, 1200, 512, 512⟩)
        (scanned State.reset [0x7E, 0x00, 0x04, 0x08, 0x52])) = some mode2 := by decide

/-- H3, H4: an illegal record changes nothing. -/
theorem test_reset_refuses_illegal_record :
    after (exec (.reset ⟨3, 0, 1, 1200, 512, 512⟩) mode2) = some mode2 ∧
    after (exec (.reset ⟨1, 0, 1, 1200, 4, 512⟩) mode2) = some mode2 := by decide

/-- R11, R360: TX_CAP has no upper bound; its 32-bit register holds its greatest value (log 15). -/
theorem test_reset_accepts_any_tx_cap :
    (after (exec (.reset ⟨1, 0, 1, 1200, 512, 2 ^ 40⟩) mode2)).map (fun t => (t.cfg.apiMode, t.cfg.txCap)) =
      some (1, 0xFFFFFFFF) := by decide

/-- H5. -/
theorem test_illegal_command_changes_nothing :
    after (step { State.reset with cmdq := [{ code := 0x05 }] }) = some State.reset := by decide

/-- E8, E10: no serializer, reported before the fields are looked at. -/
theorem test_encode_unknown_type :
    raised State.reset { type := 0x8A, modemStatus := some 0 } =
      some [.unsupportedFrameType 0x8A] ∧
    raised State.reset { type := 0x55, command := some nj } =
      some [.unsupportedFrameType 0x55] := by decide

/-! ## Received bytes -/

/-- R303, R308 from Idle, and Q10's second marker in API mode 2, which abandons the first frame. -/
theorem test_rx_start :
    (receiving State.reset 0x7E).map (fun t => (t.waiting, t.cnt, t.rxbuf)) =
      some (false, 1, [(0, 0x7E)]) ∧
    (receiving (scanned mode2 [0x7E, 0x00, 0x04, 0x08]) 0x7E).map
      (fun t => (t.cnt, t.len, t.sum, t.events)) = some (1, 0, 0, []) := by decide

/-- Q22: the marker after an escape marker in Idle still starts a frame, unescaped. -/
theorem test_rx_start_clears_escape :
    (receiving { mode2 with escPend := true } 0x7E).map (fun t => (t.waiting, t.escPend, t.last)) =
      some (false, false, 0x7E) := by decide

/-- Q12: a second escape marker writes nothing; Q23. -/
theorem test_rx_esc :
    (receiving (scanned mode2 [0x7E, 0x00, 0x04, 0x08, 0x7D]) 0x7D).map
      (fun t => (t.escPend, t.cnt, t.last)) = some (true, 4, 0x7D) := by decide

/-- Q6: the mismatch comes before the frame. -/
theorem test_rx_checksum_mismatch :
    (receiving (scanned State.reset [0x7E, 0x00, 0x04, 0x08, 0x52, 0x4E, 0x4A]) 0x0E).map
      (fun t => (t.events, t.cnt, t.len, t.sum, t.chk)) =
      some ([.checksumMismatch 0x0E 0x0D,
        .frameObject { type := 0x08, id := some 0x52, command := some nj,
                       commandParameter := some [] }], 8, 0, 0xF2, 0x0E) := by decide

/-- Q16: the ninth byte of a frame in a buffer of eight. -/
theorem test_rx_capacity :
    (receiving (scanned small [0x7E, 0x00, 0x05, 0x08, 0x01, 0x4E, 0x49, 0x41]) 0x1E).map
      (fun t => (t.events, t.waiting, t.cnt, t.len, t.sum, t.last)) =
      some ([.capacityExceeded 8], true, 8, 5, 0xE1, 0x1E) := by decide

/-- Q13 and Q8: a frame with an escaped byte, from the escape on. -/
theorem test_rx_unescape :
    (receiving (scanned mode2 [0x7E, 0x00, 0x04, 0x08, 0x7D]) 0x31).map
      (fun t => (t.rxbuf.read 4, t.sum, t.escPend, t.last)) = some (0x11, 0x19, false, 0x11) ∧
    (receiving (scanned mode2 [0x7E, 0x00, 0x04, 0x08, 0x7D]) 0x5D).map
      (fun t => (t.rxbuf.read 4, t.cnt)) = some (0x7D, 5) := by decide

/-- Q27 (RAW_FRAMES = 1). -/
theorem test_rx_raw_frame :
    (receiving (scanned raw [0x7E, 0x00, 0x04, 0x08, 0x52, 0x4E, 0x4A]) 0x0D).map (·.events) =
      some [.frameRaw [0x7E, 0x00, 0x04, 0x08, 0x52, 0x4E, 0x4A, 0x0D]] := by decide

/-! ## Escaping and checksum -/

/-- X3, X4, X5, X11 and X1. -/
theorem test_escape :
    escape [0x7E, 0x7E] = [0x7E, 0x7D, 0x5E] ∧
    escape [0x7E, 0x00, 0x01, 0x11, 0xEE] = [0x7E, 0x00, 0x01, 0x7D, 0x31, 0xEE] ∧
    escape [0x7E, 0x00, 0x02, 0x13, 0x7D, 0x6F] =
      [0x7E, 0x00, 0x02, 0x7D, 0x33, 0x7D, 0x5D, 0x6F] ∧
    escape [0x7D, 0x7D] = [0x7D, 0x7D, 0x5D] ∧ escape [] = [] := by decide

/-- R161: a trailing escape marker gives no byte; an escape outside Escape's image too. -/
theorem test_unescape :
    unescape [0x7E, 0x00, 0x7D] = [0x7E, 0x00] ∧ unescape [0x7E, 0x7D, 0x41] = [0x7E, 0x61] ∧
    unescape [0x7D, 0x7D, 0x5D] = [0x7D, 0x7D] := by decide

/-- K1, K3, K4, K5, K7. -/
theorem test_checksum :
    checksum [0x08, 0x52, 0x4E, 0x4A] = 0x0D ∧ checksum [0xFF] = 0x00 ∧
    checksum [0xFF, 0x01] = 0xFF ∧ checksum [0x00] = 0xFF ∧ checksum [] = 0xFF := by decide

/-- A2, A3, A4, A6 and A7, at 1200 and 3300 mV. -/
theorem test_scale_adc :
    [1, 511, 512, 1023, 65535].map (fun r => scaleAdc State.reset.cfg (BitVec.ofNat 16 r)) =
      [1, 599, 601, 1200, 76874] ∧
    [1, 511, 512, 1023, 65535].map
      (fun r => scaleAdc { State.reset.cfg with vrefAdc := 3300 } (BitVec.ofNat 16 r)) =
      [3, 1648, 1652, 3300, 211403] := by decide

/-- N2, N3, N4 to N7. -/
theorem test_sensor_conversions :
    sensorMv 0x0010 = 320 ∧ sensorMv 0xFFFF = 1310700 ∧ temp16 0x0190 = 400 ∧
    temp16 0x07FF = 2047 ∧ temp16 0x0800 = 0 ∧ temp16 0x0FF0 = -2032 := by decide

/-- The channel names of R262 name no two bits alike. -/
theorem test_channel_names_injective :
    ((List.range 16).filterMap Params.digitalName).Nodup ∧
    ((List.range 8).filterMap Params.analogName).Nodup := by decide

/-! ## Other parameters (R6, R9) -/

/-- The layout of a tag that R124 does not name: one byte, in a field that no table names. -/
def countSerializer : Serializer where
  hasId := true
  required := [.other "count"]
  fields _ m :=
    match m.others.lookup "count" with
    | some (.nat n) => [BitVec.ofNat 8 n]
    | _ => []

def parseCount : Parser := fun _ _ m => do
  let b ← readU8
  pure (.message { m with others := [("count", .nat b.toNat)] })

/-- XON at 0x5A, MODEM_STATUS at tag 0x42 and with a serializer, a TX_REQUEST_16 without an id whose options
are required, a CREATE_SOURCE_ROUTE of destination16 alone, with any number of addresses, no parser for
TX_STATUS, tag 0x55 in both registries, every analog bit of one name, digital bits 2 and 3 of one name. -/
def other : Parameters :=
  { Params.default with
    xon := 0x5A
    tag := fun ty => if ty = .modemStatus then 0x42 else Params.tag ty
    digitalName := fun bit => if bit = 3 then some (.dio 2) else Params.digitalName bit
    analogName := fun _ => some .supply
    encReg := fun ty =>
      if ty = .txRequest16 then
        some { hasId := false, required := [.options]
               fields := fun _ m => u8Field m.options [] ++ m.data.getD [] }
      else if ty = .modemStatus then
        some { hasId := false, required := [.modemStatus], fields := fun _ m => u8Field m.modemStatus [] }
      else if ty = .createSourceRoute then
        some { hasId := true, required := [.destination16], fields := destination16Field }
      else if ty = .unnamed 0x55 then some countSerializer
      else Params.default.encReg ty
    decReg := fun ty =>
      if ty = .txStatus then none
      else if ty = .unnamed 0x55 then some parseCount
      else Params.default.decReg ty }

/-- The events of the one step that emits a frame, at other parameters. -/
def emittedFor (P : Parameters) (d : List Byte) : Option (List Event) :=
  (after (stepFor P (framed d))).map (·.events)

theorem test_parameters_escape :
    escape [0x7E, 0x5A, 0x11, 0x7D] other = [0x7E, 0x7D, 0x7A, 0x11, 0x7D, 0x5D] := by decide

theorem test_parameters_parse :
    emittedFor other [0x42, 0x06] = some [.frameObject { type := 0x42, modemStatus := some 6 }] ∧
    emittedFor other [0x8A, 0x06] = some [.frameRaw (frameBytes [0x8A, 0x06])] ∧
    emittedFor other [0x89, 0x05, 0x00] = some [.frameRaw (frameBytes [0x89, 0x05, 0x00])] ∧
    ((emittedFor other ([0x92] ++ aa ++ [1, 1, 0, 0, 0x10, 2, 0])).map fun es =>
      es.map Event.code) = some [0x01] := by decide

/-- A name that two bits share holds the later value (R261, R263): digital bits 2 and 3 of the word 0x0004,
analog bits 0 and 7 with 1023 and 512 of 1200 mV. -/
theorem test_parameters_repeated_names :
    emittedFor other ([0x92] ++ aa ++ [1, 1, 0, 0x0C, 0x81, 0, 4, 3, 0xFF, 2, 0]) =
      some [.frameObject
        { type := 0x92, remote64 := some a64, remote16 := some a16, receiveOptions := some 1,
          numSamples := some 1, digitalSamples := some (.named [(.dio 2, 0)]),
          analogSamples := some (.named [(.supply, 601)]) }] := by decide

/-- Entries that the opcode table has no row for, in both registries (log 26). -/
theorem test_parameters_without_row :
    emittedFor other [0x55, 0x07] = some [.frameObject { type := 0x55, others := [("count", .nat 7)] }] ∧
    emittedFor other [0x55] =
      some [.decodeError (.truncated 0) (frameBytes [0x55])] ∧
    (after (exec (.decUnregistered 0x55 [0x07]) (framed [0x55, 0x07]))).map (·.events) =
      some [.frameRaw (frameBytes [0x55, 0x07])] := by decide

/-- What the one step of an ENCODE returns and reports at other parameters, and FID after it. -/
def sendFor (P : Parameters) (m : Message) : Option (List Result × List Event × Byte) :=
  (after (stepFor P { State.reset with cmdq := [{ code := 0x02, message := m }] })).map
    fun t => (t.results, t.events, t.fid)

theorem test_parameters_serialize_without_row :
    sendFor other { type := 0x42, modemStatus := some 6 } =
      some ([.encoded [0x7E, 0, 2, 0x42, 6, 0xB7]], [], 0) ∧
    sendFor other { type := 0x42 } = some ([], [.missingField 0x42 .modemStatus], 0) := by decide

theorem test_parameters_serialize_unnamed :
    sendFor other { type := 0x55, others := [("count", .nat 9)] } =
      some ([.encoded [0x7E, 0, 3, 0x55, 1, 9, 0xA0]], [], 1) ∧
    sendFor other { type := 0x55 } = some ([], [.missingField 0x55 (.other "count")], 0) ∧
    sendFor other { type := 0x56 } = some ([], [.unsupportedFrameType 0x56], 0) := by decide

theorem test_parameters_serialize :
    sendFor other { type := 0x01, options := some 9, data := some hi } =
      some ([.encoded [0x7E, 0x00, 0x04, 0x01, 0x09, 0x48, 0x69, 0x44]], [], 0) ∧
    sendFor other { type := 0x01, destination16 := some a16 } =
      some ([], [.missingField 0x01 .options], 0) := by decide

/-- The default layout's range of 0..255 addresses is not another layout's (R9, R200). -/
theorem test_parameters_range :
    sendFor other { type := 0x21, destination16 := some ⟨0x33, 0x44⟩
                    addresses := some (List.replicate 256 0) } =
      some ([.encoded [0x7E, 0x00, 0x04, 0x21, 0x00, 0x33, 0x44, 0x67]], [], 0) := by decide

/-! ## The encoder -/

/-- S1; the frame stands in TXBUF from index 0 (R82, log 25). -/
theorem test_enc_at_command :
    (sending State.reset { type := 0x08, id := some 0x52, command := some nj,
                           commandParameter := some [] }).map
      (fun t => (t.results, t.txbuf.readBytes 0 8)) =
      some ([.encoded [0x7E, 0x00, 0x04, 0x08, 0x52, 0x4E, 0x4A, 0x0D]],
        [0x7E, 0x00, 0x04, 0x08, 0x52, 0x4E, 0x4A, 0x0D]) := by decide

/-- E1, E3, E4, E6: the id and FID. -/
theorem test_enc_at_command_ids :
    (sending State.reset { type := 0x08, command := some nj }).map (fun t => (t.results, t.fid)) =
      some ([.encoded [0x7E, 0x00, 0x04, 0x08, 0x01, 0x4E, 0x4A, 0x5E]], 1) ∧
    (sending { State.reset with fid := 254 } { type := 0x08, command := some nj }).map
      (fun t => (t.results, t.fid)) =
      some ([.encoded [0x7E, 0x00, 0x04, 0x08, 0xFF, 0x4E, 0x4A, 0x60]], 255) ∧
    (sending { State.reset with fid := 255 } { type := 0x08, command := some nj }).map
      (fun t => (t.results, t.fid)) =
      some ([.encoded [0x7E, 0x00, 0x04, 0x08, 0x01, 0x4E, 0x4A, 0x5E]], 1) ∧
    (sending { State.reset with fid := 7 } { type := 0x08, id := some 0, command := some nj }).map
      (fun t => (t.results, t.fid)) =
      some ([.encoded [0x7E, 0x00, 0x04, 0x08, 0x00, 0x4E, 0x4A, 0x5F]], 7) := by decide

/-- E9, E11, E13, E14: a missing field keeps FID, a capacity fault keeps its advance. -/
theorem test_enc_faults :
    (sending State.reset { type := 0x08 }).map (fun t => (t.events, t.fid)) =
      some ([.missingField 0x08 .command], 0) ∧
    (sending small { type := 0x08, command := some ni, commandParameter := some [0x41] }).map
      (fun t => (t.events, t.results, t.fid)) = some ([.capacityExceeded 9], [], 1) ∧
    sent small { type := 0x08, id := some 0x7E, command := some nj } =
      some [.encoded [0x7E, 0x00, 0x04, 0x08, 0x7E, 0x4E, 0x4A, 0xE1]] ∧
    raised { small with cfg := { small.cfg with apiMode := 2 } }
        { type := 0x08, id := some 0x7E, command := some nj } =
      some [.capacityExceeded 9] := by decide

/-- E17. -/
theorem test_enc_queued_at_command :
    sent State.reset { type := 0x09, id := some 0x03, command := some ⟨0x42, 0x44⟩,
                       commandParameter := some [0x07] } =
      some [.encoded [0x7E, 0x00, 0x05, 0x09, 0x03, 0x42, 0x44, 0x07, 0x66]] := by
  decide

/-- The example of R203. -/
theorem test_enc_remote_at_command :
    sent State.reset { type := 0x17, id := some 1, destination64 := some d64,
                       command := some ⟨0x44, 0x32⟩,
                       commandParameter := some [0x04] } =
      some [.encoded [0x7E, 0x00, 0x10, 0x17, 0x01, 0x00, 0x13, 0xA2, 0x00, 0x40, 0x0A, 0x01, 0x27,
        0xFF, 0xFE, 0x02, 0x44, 0x32, 0x04, 0x47]] := by
  decide

/-- The example of R204. -/
theorem test_enc_transmit_request :
    sent State.reset { type := 0x10, id := some 1, destination64 := some d64, data := some hi } =
      some [.encoded [0x7E, 0x00, 0x10, 0x10, 0x01, 0x00, 0x13, 0xA2, 0x00, 0x40, 0x0A, 0x01, 0x27,
        0xFF, 0xFE, 0x00, 0x00, 0x48, 0x69, 0x19]] := by
  decide

/-- E12: the address byte 0x13 is escaped. -/
theorem test_enc_transmit_request_escaped :
    sent mode2 { type := 0x10, id := some 1, destination64 := some d64, data := some hi } =
      some [.encoded [0x7E, 0x00, 0x10, 0x10, 0x01, 0x00, 0x7D, 0x33, 0xA2, 0x00, 0x40, 0x0A, 0x01,
        0x27, 0xFF, 0xFE, 0x00, 0x00, 0x48, 0x69, 0x19]] := by
  decide

/-- The example of R205, with the cluster id as bytes (R192). -/
theorem test_enc_explicit_addressing :
    sent State.reset { type := 0x11, id := some 1, destination64 := some d64,
                       sourceEndpoint := some 0xE8,
                       destinationEndpoint := some 0xE8, clusterId := some (.raw ⟨0x00, 0x11⟩),
                       profileId := some (.number 0xC105), data := some [0x41] } =
      some [.encoded [0x7E, 0x00, 0x15, 0x11, 0x01, 0x00, 0x13, 0xA2, 0x00, 0x40, 0x0A, 0x01, 0x27,
        0xFF, 0xFE, 0xE8, 0xE8, 0x00, 0x11, 0xC1, 0x05, 0x00, 0x00, 0x41, 0xE1]] := by
  decide

/-- The example of R206. -/
theorem test_enc_tx_request_64 :
    sent State.reset { type := 0x00, id := some 1, destination64 := some d64, data := some hi } =
      some [.encoded [0x7E, 0x00, 0x0D, 0x00, 0x01, 0x00, 0x13, 0xA2, 0x00, 0x40, 0x0A, 0x01, 0x27,
        0x00, 0x48, 0x69, 0x26]] := by
  decide

/-- E18. -/
theorem test_enc_tx_request_16 :
    sent State.reset { type := 0x01, id := some 1, destination16 := some ⟨0x12, 0x34⟩,
                       data := some hi } =
      some [.encoded [0x7E, 0x00, 0x07, 0x01, 0x01, 0x12, 0x34, 0x00, 0x48, 0x69, 0x06]] := by
  decide

/-- E7: the explicit id is ignored, FID stays. -/
theorem test_enc_source_route :
    (sending { State.reset with fid := 7 }
        { type := 0x21, id := some 0x33, destination64 := some d64,
          destination16 := some ⟨0x33, 0x44⟩, addresses := some [0xEEFF] }).map
      (fun t => (t.results, t.fid)) =
      some ([.encoded [0x7E, 0x00, 0x10, 0x21, 0x00, 0x00, 0x13, 0xA2, 0x00, 0x40, 0x0A, 0x01,
        0x27, 0x33, 0x44, 0x00, 0x01, 0xEE, 0xFF, 0x52]], 7) := by
  decide

/-- The example of R208, two addresses. -/
theorem test_enc_source_route_two :
    sent State.reset { type := 0x21, destination64 := some d64, destination16 := some ⟨0x33, 0x44⟩,
                       addresses := some [0xEEFF, 0xCCDD] } =
      some [.encoded [0x7E, 0x00, 0x12, 0x21, 0x00, 0x00, 0x13, 0xA2, 0x00, 0x40, 0x0A, 0x01, 0x27,
        0x33, 0x44, 0x00, 0x02, 0xEE, 0xFF, 0xCC, 0xDD, 0xA8]] := by
  decide

/-! ## The decoder -/

/-- D2. -/
theorem test_dec_modem_status :
    emitted [0x8A, 0x7E] =
      some [.frameObject
        { type := 0x8A, modemStatus := some 0x7E }] := by
  decide

/-- S3. -/
theorem test_dec_transmit_status :
    emitted [0x8B, 0x01, 0x7D, 0x84, 0x00, 0x00, 0x01] =
      some [.frameObject
        { type := 0x8B, id := some 1, remote16 := some a16, transmitRetryCount := some 0,
          deliveryStatus := some 0, discoveryStatus := some 1 }] := by
  decide

/-- D5. -/
theorem test_dec_transmit_status_short :
    emitted [0x8B, 0x01, 0x7D, 0x84, 0x00, 0x00] =
      some [.decodeError (.truncated 5) [0x7E, 0x00, 0x06, 0x8B, 0x01, 0x7D, 0x84, 0x00, 0x00,
        0x72]] := by
  decide

/-- D6. -/
theorem test_dec_at_response_short :
    emitted [0x88, 0x01, 0x4E, 0x4A] =
      some [.decodeError (.truncated 3) [0x7E, 0x00, 0x04, 0x88, 0x01, 0x4E, 0x4A, 0xDE]] := by
  decide

/-- The example of R251. -/
theorem test_dec_at_response :
    emitted [0x88, 0x01, 0x4E, 0x4A, 0x00, 0xFF] =
      some [.frameObject
        { type := 0x88, id := some 1, command := some nj, commandStatus := some 0,
          commandData := some [0xFF] }] := by
  decide

/-- D8. -/
theorem test_at_nd_without_data :
    emitted [0x88, 0x01, 0x4E, 0x44, 0x00] =
      some [.frameObject
        { type := 0x88, id := some 1, command := some ⟨0x4E, 0x44⟩, commandStatus := some 0,
          commandData := some [] }] := by
  decide

/-- The example of R252. -/
theorem test_at_nd :
    emitted [0x88, 0x01, 0x4E, 0x44, 0x00, 0x7D, 0x84, 0x00, 0x13, 0xA2, 0x00, 0x40, 0x52, 0x2B,
      0xAA, 0x4E, 0x31, 0x00] =
      some [.frameObject
        { type := 0x88, id := some 1, command := some ⟨0x4E, 0x44⟩, commandStatus := some 0,
          nodeIdentification := some
            { remote16 := a16, remote64 := a64, nodeIdentifier := [0x4E, 0x31],
              extension := none } }] := by
  decide

/-- D9. -/
theorem test_at_other_local_is :
    emitted [0x88, 0x01, 0x49, 0x53, 0x00, 0x01, 0x00, 0x1C, 0x02, 0x00, 0x14, 0x02, 0x00] =
      some [.frameObject
        { type := 0x88, id := some 1, command := some ⟨0x49, 0x53⟩, commandStatus := some 0,
          commandData := some [0x01, 0x00, 0x1C, 0x02, 0x00, 0x14, 0x02, 0x00] }] := by
  decide

/-- D10. -/
theorem test_at_is_remote :
    emitted [0x97, 0x02, 0x00, 0x13, 0xA2, 0x00, 0x40, 0x52, 0x2B, 0xAA, 0x7D, 0x84, 0x49, 0x53,
      0x00, 0x01, 0x00, 0x1C, 0x02, 0x00, 0x14, 0x02, 0x00] =
      some [.frameObject
        { type := 0x97, id := some 2, remote64 := some a64, remote16 := some a16,
          command := some ⟨0x49, 0x53⟩, commandStatus := some 0, numSamples := some 1,
          digitalSamples := some (.named [(.dio 2, 1), (.dio 3, 0), (.dio 4, 1)])
          analogSamples := some (.named [(.ad 1, 601)]) }] := by
  decide

/-- D11. -/
theorem test_at_is_remote_status :
    emitted [0x97, 0x02, 0x00, 0x13, 0xA2, 0x00, 0x40, 0x52, 0x2B, 0xAA, 0x7D, 0x84, 0x49, 0x53, 0x01] =
      some [.frameObject
        { type := 0x97, id := some 2, remote64 := some a64, remote16 := some a16,
          command := some ⟨0x49, 0x53⟩, commandStatus := some 1, numSamples := some 0,
          digitalSamples := some (.named []), analogSamples := some (.named []) }] := by
  decide

/-- The frame of R252 without its last two bytes: the name has no NUL. -/
theorem test_at_nd_short :
    emitted [0x88, 0x01, 0x4E, 0x44, 0x00, 0x7D, 0x84, 0x00, 0x13, 0xA2, 0x00, 0x40, 0x52, 0x2B,
      0xAA, 0x4E] =
      some [.decodeError (.truncated 14)
        [0x7E, 0x00, 0x10, 0x88, 0x01, 0x4E, 0x44, 0x00, 0x7D, 0x84, 0x00, 0x13, 0xA2, 0x00, 0x40,
          0x52, 0x2B, 0xAA, 0x4E, 0x79]] := by
  decide

/-- The payload of D12 in a remote IS response. -/
theorem test_at_is_remote_unnamed :
    emitted [0x97, 0x02, 0x00, 0x13, 0xA2, 0x00, 0x40, 0x52, 0x2B, 0xAA, 0x7D, 0x84, 0x49, 0x53,
      0x00, 0x01, 0x00, 0x00, 0x10, 0x01, 0x00] =
      some [.decodeError (.unnamedChannel 4)
        [0x7E, 0x00, 0x15, 0x97, 0x02, 0x00, 0x13, 0xA2, 0x00, 0x40, 0x52, 0x2B, 0xAA, 0x7D, 0x84,
          0x49, 0x53, 0x00, 0x01, 0x00, 0x00, 0x10, 0x01, 0x00, 0x9B]] := by
  decide

/-- D15. -/
theorem test_dec_node_identification_no_nul :
    emitted [0x95, 0x00, 0x13, 0xA2, 0x00, 0x40, 0x52, 0x2B, 0xAA, 0x7D, 0x84, 0x02, 0x7D, 0x84,
      0x00, 0x13, 0xA2, 0x00, 0x40, 0x52, 0x2B, 0xAA, 0x4E, 0x4F, 0x44, 0x45] =
      some [.decodeError (.truncated 21)
        [0x7E, 0x00, 0x1A, 0x95, 0x00, 0x13, 0xA2, 0x00, 0x40, 0x52, 0x2B, 0xAA, 0x7D, 0x84, 0x02,
          0x7D, 0x84, 0x00, 0x13, 0xA2, 0x00, 0x40, 0x52, 0x2B, 0xAA, 0x4E, 0x4F, 0x44, 0x45,
          0x08]] := by
  decide

/-- S6. -/
theorem test_dec_io_sample :
    emitted [0x92, 0x00, 0x13, 0xA2, 0x00, 0x40, 0x52, 0x2B, 0xAA, 0x7D, 0x84, 0x01, 0x01, 0x00,
      0x1C, 0x02, 0x00, 0x14, 0x02, 0x00] =
      some [.frameObject
        { type := 0x92, remote64 := some a64, remote16 := some a16, receiveOptions := some 1,
          numSamples := some 1
          digitalSamples := some (.named [(.dio 2, 1), (.dio 3, 0), (.dio 4, 1)])
          analogSamples := some (.named [(.ad 1, 601)]) }] := by
  decide

/-- D12. -/
theorem test_dec_io_sample_unnamed :
    emitted [0x92, 0x00, 0x13, 0xA2, 0x00, 0x40, 0x52, 0x2B, 0xAA, 0x7D, 0x84, 0x01, 0x01, 0x00,
      0x00, 0x10, 0x01, 0x00] =
      some [.decodeError (.unnamedChannel 4)
        [0x7E, 0x00, 0x12, 0x92, 0x00, 0x13, 0xA2, 0x00, 0x40, 0x52, 0x2B, 0xAA, 0x7D, 0x84, 0x01,
          0x01, 0x00, 0x00, 0x10, 0x01, 0x00, 0x3D]] := by
  decide

/-- S4. -/
theorem test_dec_receive_packet :
    emitted [0x90, 0x00, 0x13, 0xA2, 0x00, 0x40, 0x52, 0x2B, 0xAA, 0x7D, 0x84, 0x01, 0x48, 0x65,
      0x6C, 0x6C, 0x6F] =
      some [.frameObject
        { type := 0x90, remote64 := some a64, remote16 := some a16, receiveOptions := some 1,
          data := some [0x48, 0x65, 0x6C, 0x6C, 0x6F] }] := by
  decide

/-- The example of R258. -/
theorem test_dec_explicit_rx :
    emitted [0x91, 0x00, 0x13, 0xA2, 0x00, 0x40, 0x52, 0x2B, 0xAA, 0x7D, 0x84, 0xE8, 0xE8, 0x00,
      0x11, 0xC1, 0x05, 0x01, 0x41] =
      some [.frameObject
        { type := 0x91, remote64 := some a64, remote16 := some a16, sourceEndpoint := some 0xE8,
          destinationEndpoint := some 0xE8, clusterId := some (.raw ⟨0x00, 0x11⟩),
          profileId := some (.raw ⟨0xC1, 0x05⟩), receiveOptions := some 1, data := some [0x41] }] := by
  decide

/-- The example of R266. -/
theorem test_dec_node_identification :
    emitted [0x95, 0x00, 0x13, 0xA2, 0x00, 0x40, 0x52, 0x2B, 0xAA, 0x7D, 0x84, 0x02, 0x7D, 0x84,
      0x00, 0x13, 0xA2, 0x00, 0x40, 0x52, 0x2B, 0xAA, 0x4E, 0x4F, 0x44, 0x45, 0x00, 0xFF, 0xFE,
      0x01, 0x01, 0xC1, 0x05, 0x10, 0x1E] =
      some [.frameObject
        { type := 0x95, sender64 := some a64, sender16 := some a16, receiveOptions := some 2,
          remote16 := some a16, remote64 := some a64, nodeIdentifier := some [0x4E, 0x4F, 0x44, 0x45],
          remoteParent16 := some ⟨0xFF, 0xFE⟩, deviceType := some 1, sourceEvent := some 1,
          digiProfileID := some ⟨0xC1, 0x05⟩, digiManufacturerID := some ⟨0x10, 0x1E⟩ }] := by
  decide

/-- D16. -/
theorem test_dec_node_identification_short :
    emitted [0x95, 0x00, 0x13, 0xA2, 0x00, 0x40, 0x52, 0x2B, 0xAA, 0x7D, 0x84, 0x02, 0x7D, 0x84,
      0x00, 0x13, 0xA2, 0x00, 0x40, 0x52, 0x2B, 0xAA, 0x4E, 0x00, 0xFF, 0xFE, 0x01] =
      some [.decodeError (.truncated 26)
        [0x7E, 0x00, 0x1B, 0x95, 0x00, 0x13, 0xA2, 0x00, 0x40, 0x52, 0x2B, 0xAA, 0x7D, 0x84, 0x02,
          0x7D, 0x84, 0x00, 0x13, 0xA2, 0x00, 0x40, 0x52, 0x2B, 0xAA, 0x4E, 0x00, 0xFF, 0xFE, 0x01,
          0xE2]] := by
  decide

/-- D18. -/
theorem test_dec_sensor :
    emitted [0x94, 0x00, 0x13, 0xA2, 0x00, 0x40, 0x52, 0x2B, 0xAA, 0x7D, 0x84, 0x01, 0x02, 0x00,
      0x10, 0x00, 0x20, 0x00, 0x80, 0x00, 0x40, 0x0F, 0xF0] =
      some [.frameObject
        { type := 0x94, remote64 := some a64, remote16 := some a16, receiveOptions := some 1,
          sensors := some 2,
          AD := some [320, 640, 2560, 1280], T := some 0x0FF0, temperature16 := some (-2032) }] := by
  decide

/-- The example of R269: 54.84 and 54.81 percent. -/
theorem test_dec_sensor_humidity :
    emitted [0x94, 0x00, 0x13, 0xA2, 0x00, 0x40, 0x52, 0x2B, 0xAA, 0x7D, 0x84, 0x01, 0x03, 0x00,
      0x10, 0x00, 0x20, 0x00, 0x80, 0x00, 0x40, 0x01, 0x90] =
      some [.frameObject
        { type := 0x94, remote64 := some a64, remote16 := some a16, receiveOptions := some 1,
          sensors := some 3,
          AD := some [320, 640, 2560, 1280], T := some 0x0190, temperature16 := some 400,
          relativeHumidity := some 5484, trueHumidity := some 5481 }] := by
  decide

/-- D22. -/
theorem test_dec_route_record :
    emitted [0xA1, 0x00, 0x13, 0xA2, 0x00, 0x40, 0x52, 0x2B, 0xAA, 0x7D, 0x84, 0x01, 0x02, 0x11,
      0x22, 0x33, 0x44] =
      some [.frameObject
        { type := 0xA1, remote64 := some a64, remote16 := some a16, receiveOptions := some 1,
          hopCount := some 2, addresses := some [0x1122, 0x3344] }] := by
  decide

/-- D23. -/
theorem test_dec_tx_status :
    emitted [0x89, 0x05, 0x00] =
      some [.frameObject
        { type := 0x89, id := some 5, deliveryStatus := some 0 }] := by
  decide

/-- The example of R277. -/
theorem test_dec_rx_packet_64 :
    emitted [0x80, 0x00, 0x13, 0xA2, 0x00, 0x40, 0x52, 0x2B, 0xAA, 0x28, 0x00, 0x48, 0x69] =
      some [.frameObject
        { type := 0x80, remote64 := some a64, rssi := some 0x28, receiveOptions := some 0,
          data := some hi }] := by
  decide

/-- The layout of R279, on the bytes of the example of R277. -/
theorem test_dec_rx_packet_64_io :
    emitted [0x82, 0x00, 0x13, 0xA2, 0x00, 0x40, 0x52, 0x2B, 0xAA, 0x28, 0x00, 0x48, 0x69] =
      some [.frameObject
        { type := 0x82, remote64 := some a64, rssi := some 0x28, receiveOptions := some 0,
          data := some hi }] := by
  decide

/-- The example of R278. -/
theorem test_dec_rx_packet_16 :
    emitted [0x81, 0x12, 0x34, 0x28, 0x00, 0x48, 0x69] =
      some [.frameObject
        { type := 0x81, remote16 := some ⟨0x12, 0x34⟩, rssi := some 0x28,
          receiveOptions := some 0, data := some hi }] := by
  decide

/-- The example of R280. -/
theorem test_dec_rx_packet_16_io :
    emitted [0x83, 0x12, 0x34, 0x28, 0x00, 0x02, 0x02, 0x02, 0x00, 0x02, 0x00, 0x00, 0x01, 0x23,
      0x01, 0x45] =
      some [.frameObject
        { type := 0x83, remote16 := some ⟨0x12, 0x34⟩, rssi := some 0x28,
          receiveOptions := some 0, sampleQuantity := some 2, channelMask := some 0x0202,
          channels := some [.adc 0, .dio 1], digitalSamples := some (.words [0x0002, 0x0000])
          analogSamples := some (.perSample [[(.adc 0, 0x0123)], [(.adc 0, 0x0145)]]) }] := by
  decide

/-- D21. -/
theorem test_dec_unregistered :
    emitted [0x55] =
      some [.frameRaw [0x7E, 0x00, 0x01, 0x55, 0xAA]] := by
  decide

/-- Q1. -/
theorem test_dec_at_command :
    emitted [0x08, 0x52, 0x4E, 0x4A] =
      some [.frameObject
        { type := 0x08, id := some 0x52, command := some nj, commandParameter := some [] }] := by
  decide

/-- The frame of E17, by R283. -/
theorem test_dec_queued_at_command :
    emitted [0x09, 0x03, 0x42, 0x44, 0x07] =
      some [.frameObject
        { type := 0x09, id := some 3, command := some ⟨0x42, 0x44⟩,
          commandParameter := some [0x07] }] := by
  decide

/-- The frame of the example of R203, by R284. -/
theorem test_dec_remote_at_command :
    emitted [0x17, 0x01, 0x00, 0x13, 0xA2, 0x00, 0x40, 0x0A, 0x01, 0x27, 0xFF, 0xFE, 0x02, 0x44,
      0x32, 0x04] =
      some [.frameObject
        { type := 0x17, id := some 1, destination64 := some d64, destination16 := some ⟨0xFF, 0xFE⟩,
          remoteCommandOptions := some 2, command := some ⟨0x44, 0x32⟩,
                commandParameter := some [0x04] }] := by
  decide

/-- The frame of E12, unescaped, by R285. -/
theorem test_dec_transmit_request :
    emitted [0x10, 0x01, 0x00, 0x13, 0xA2, 0x00, 0x40, 0x0A, 0x01, 0x27, 0xFF, 0xFE, 0x00, 0x00,
      0x48, 0x69] =
      some [.frameObject
        { type := 0x10, id := some 1, destination64 := some d64, destination16 := some ⟨0xFF, 0xFE⟩,
          broadcastRadius := some 0, options := some 0, data := some hi }] := by
  decide

/-- The frame of the example of R205, by R286. -/
theorem test_dec_explicit_addressing :
    emitted [0x11, 0x01, 0x00, 0x13, 0xA2, 0x00, 0x40, 0x0A, 0x01, 0x27, 0xFF, 0xFE, 0xE8, 0xE8,
      0x00, 0x11, 0xC1, 0x05, 0x00, 0x00, 0x41] =
      some [.frameObject
        { type := 0x11, id := some 1, destination64 := some d64, destination16 := some ⟨0xFF, 0xFE⟩,
          sourceEndpoint := some 0xE8, destinationEndpoint := some 0xE8,
          clusterId := some (.number 0x0011), profileId := some (.number 0xC105),
          broadcastRadius := some 0, options := some 0, data := some [0x41] }] := by
  decide

/-- The frame of the example of R206, by R287. -/
theorem test_dec_tx_request_64 :
    emitted [0x00, 0x01, 0x00, 0x13, 0xA2, 0x00, 0x40, 0x0A, 0x01, 0x27, 0x00, 0x48, 0x69] =
      some [.frameObject
        { type := 0x00, id := some 1, destination64 := some d64, options := some 0,
          data := some hi }] := by
  decide

/-- The frame of E18, by R288. -/
theorem test_dec_tx_request_16 :
    emitted [0x01, 0x01, 0x12, 0x34, 0x00, 0x48, 0x69] =
      some [.frameObject
        { type := 0x01, id := some 1, destination16 := some ⟨0x12, 0x34⟩, options := some 0,
          data := some hi }] := by
  decide

/-! ## Witnesses: the hypotheses of each statement, met by concrete values -/

/-- A frame in progress: 7E 00 04 08 52 4E 4A, one byte short of completion. -/
def almost : State := scanned State.reset [0x7E, 0x00, 0x04, 0x08, 0x52, 0x4E, 0x4A]

/-- A full buffer of eight bytes with a ninth still to come. -/
def full : State := scanned small [0x7E, 0x00, 0x05, 0x08, 0x01, 0x4E, 0x49, 0x41]

def small2 : State := { small with cfg := { small.cfg with apiMode := 2 } }

theorem wf_nil : State.reset.txbuf.wf := by simp [State.reset, State.resetFor, Memory.wf]

theorem framed_frame : (framed [0x55]).frame = some [0x7E, 0x00, 0x01, 0x55, 0xAA] := by decide

theorem test_hyp_DecodeOfEncodeIsIdentity :
    (Instr.illegalCommand 0x00).wellFormed = true ∧ (Instr.illegalCommand 0x05).wellFormed = true ∧
    (Instr.encCreateSourceRoute none (some d64) none { type := 0x21, addresses := some [0xEEFF] }).wellFormed = true ∧
    (Instr.decTxStatus [1, 2]).wellFormed = true ∧ (Instr.decModemStatus [1]).wellFormed other = true ∧
    (Instr.encTxRequest16 none none none { type := 0x01 }).wellFormed other = true ∧
    (Instr.atNd ⟨false, nd⟩ ⟨4, [0x7D]⟩).wellFormed = true ∧
    (Instr.atIsRemote isHead (some 0) ⟨14, []⟩).wellFormed = true ∧
    (Instr.atOther otherHead (some ⟨0x4E, 0x44⟩) (some 0) ⟨4, []⟩).wellFormed = true := by decide

theorem test_hyp_StepRunsDecodedInstruction :
    (∃ i, { State.reset with rxq := [0x7E] }.fetch = .item (.rxByte ⟨false, true, false⟩ 0x7E) ∧
      decode (.rxByte ⟨false, true, false⟩ 0x7E) = .ok i) ∧
    ({ State.reset with rxq := [0x7E] }.phase = .idle) ∧
    ({ State.reset with cmdq := [{ code := 0x03 }] }.rxq = []) ∧
    ({ State.reset with phase := .serialize { type := 0x08 } }.phase = .serialize { type := 0x08 }) ∧
    ((framed [0x55]).phase = .emitFrame ∧ (framed [0x55]).frame.isSome) ∧
    ({ State.reset with phase := .atBranch false nd ⟨4, []⟩ }.phase = .atBranch false nd ⟨4, []⟩) ∧
    (framed [0x55]).phase ≠ .idle :=
  ⟨⟨_, rfl, rfl⟩, rfl, rfl, rfl, ⟨rfl, by decide⟩, rfl, by decide⟩

theorem test_hyp_ByteClassByModeAndState :
    let s := scanned mode2 [0x7E, 0x00, 0x7D]
    s.waiting = false ∧ s.escPend = true ∧ s.cnt < s.cfg.rxCap.toNat ∧
    (⟨false, true, false⟩ : RxContext).escapedMode = false ∧
    (⟨true, false, true⟩ : RxContext).escPend = true ∧ (0x7C : Byte) ≠ 0x7D := by decide

theorem test_hyp_MnemonicSelectsAtBranch :
    (nd.command = some ⟨0x4E, 0x44⟩ ∧ nd.commandStatus = some 0x00 ∧ ([0x7D] : List Byte) ≠ []) ∧
    (is97.command = some ⟨0x49, 0x53⟩ ∧ is97.commandStatus = some 0x00) ∧
    ¬((0x4E : Byte) = 0x4E ∧ (0x44 : Byte) = 0x44 ∧ (0x01 : Byte) = 0x00 ∧ ([0x7D] : List Byte) ≠ []) ∧
    ¬((0x4E : Byte) = 0x4E ∧ (0x44 : Byte) = 0x44 ∧ (0x00 : Byte) = 0x00 ∧ ([] : List Byte) ≠ []) ∧
    ¬((0x49 : Byte) = 0x49 ∧ (0x54 : Byte) = 0x53) := by decide

theorem test_hyp_PowerUpIsResetOfCfgInit : legalConfig other.cfgInit = true := by decide

/-- Both ends of the ranges of R11, and a TX_CAP on either side of its register's range. -/
theorem test_hyp_ResetLoadsLegalConfiguration :
    let legal := fun c : ConfigRecord => (c.apiMode = 1 ∨ c.apiMode = 2) ∧ c.rawFrames ≤ 1 ∧
      c.convertAdc ≤ 1 ∧ c.vrefAdc ≤ 65535 ∧ 5 ≤ c.rxCap ∧ c.rxCap ≤ 65539 ∧ 5 ≤ c.txCap
    legal ⟨1, 0, 0, 0, 5, 5⟩ ∧ legal ⟨2, 1, 1, 65535, 65539, 4294967295⟩ ∧
    legal ⟨2, 1, 1, 65535, 65539, 4294967296⟩ := by simp

/-- One record for each clause of the premise. -/
theorem test_hyp_IllegalConfigurationIsRefused :
    let refused := fun c : ConfigRecord => (c.apiMode ≠ 1 ∧ c.apiMode ≠ 2) ∨ 1 < c.rawFrames ∨
      1 < c.convertAdc ∨ 65535 < c.vrefAdc ∨ c.rxCap < 5 ∨ 65539 < c.rxCap ∨ c.txCap < 5
    refused ⟨0, 0, 0, 0, 5, 5⟩ ∧ refused ⟨3, 0, 0, 0, 5, 5⟩ ∧ refused ⟨1, 2, 0, 0, 5, 5⟩ ∧
    refused ⟨1, 0, 2, 0, 5, 5⟩ ∧ refused ⟨1, 0, 0, 65536, 5, 5⟩ ∧ refused ⟨1, 0, 0, 0, 4, 5⟩ ∧
    refused ⟨1, 0, 0, 0, 65540, 5⟩ ∧ refused ⟨1, 0, 0, 0, 5, 4⟩ := by simp

theorem test_hyp_UnknownCommandIsRefused :
    let c : Command := { code := 0x05 }
    let s := { State.reset with cmdq := [c] }
    c.code ≠ 0x01 ∧ c.code ≠ 0x02 ∧ c.code ≠ 0x03 ∧ c.code ≠ 0x04 ∧ s.phase = .idle ∧
    s.rxq = [] ∧ s.cmdq = c :: [] := by decide

theorem test_hyp_OnlyResetWritesConfiguration :
    (∀ c, Instr.nextFrameId ≠ .reset c) ∧ ∃ t, exec .nextFrameId State.reset = .next t :=
  ⟨fun _ h => (nomatch h), _, rfl⟩

theorem test_hyp_FrameIdCounterStaysNonzero :
    (∀ c, Instr.nextFrameId ≠ .reset c) ∧ { State.reset with fid := 255 }.fid ≠ 0 ∧
    ∃ t, exec .nextFrameId { State.reset with fid := 255 } = .next t :=
  ⟨fun _ h => (nomatch h), by decide, _, rfl⟩

theorem test_hyp_EncodeDispatchesByType :
    (∃ i, decode (.message { type := 0x21 }) = .ok i) ∧
    (0x8A : Byte) ∉ ([0x00, 0x01, 0x08, 0x09, 0x10, 0x11, 0x17, 0x21] : List Byte) :=
  ⟨⟨_, rfl⟩, by decide⟩

theorem test_hyp_EncodeCommandIsOneStep :
    let c : Command := { code := 0x02, message := { type := 0x08, command := some nj } }
    let s := { State.reset with cmdq := [c] }
    s.phase = .idle ∧ s.rxq = [] ∧ s.cmdq = c :: [] ∧ c.code = 0x02 ∧
    (∃ i t, decode (.message c.message) = .ok i ∧ exec i { s with cmdq := [] } = .next t) ∧
    other.serializerType 0x55 = some (.unnamed 0x55) ∧ other.serializerType 0x42 = some .modemStatus ∧
    other.serializerType 0x21 = some .createSourceRoute :=
  ⟨rfl, rfl, rfl, rfl, ⟨_, _, rfl, rfl⟩, by decide, by decide, by decide⟩

theorem test_hyp_EncodeKeepsReassembler :
    (Instr.encAtCommand none (some nj) { type := 0x08 }).format = .frameTagEncode ∧
    (∃ t, exec (.encAtCommand none (some nj) { type := 0x08 }) almost = .next t) ∧
    ∃ t, exec (.encode { type := 0x08 }) almost = .next t := ⟨rfl, ⟨_, rfl⟩, _, rfl⟩

theorem test_hyp_EventsAndResultsAreOnlyAppended :
    (∃ t, exec .nextFrameId State.reset = .next t) ∧ ∃ t, exec (.rxData 0x0E) almost = .next t :=
  ⟨⟨_, rfl⟩, _, rfl⟩

theorem test_hyp_EscapedLengthCountsReserved : ([0x7E] : List Byte) ≠ [] := by decide

/-- The four cases of SendsOrReports at a state's TX_CAP: the data fits; it is too long unescaped, for the
length field or for TX_CAP; it fits unescaped and not escaped. -/
abbrev TooLong (s : State) (d : List Byte) : Prop := 65535 < d.length ∨ s.cfg.txCap.toNat < d.length + 4
abbrev TooLongEscaped (s : State) (d : List Byte) : Prop :=
  d.length ≤ 65535 ∧ d.length + 4 ≤ s.cfg.txCap.toNat ∧ s.cfg.apiMode = 2 ∧
    s.cfg.txCap.toNat < (escapedBytes (frameBytes d)).length

/-- API mode 2, TX_CAP = n. -/
def capped (n : Nat) : State := { mode2 with cfg := { mode2.cfg with txCap := BitVec.ofNat 32 n } }

/-- Frame data of each ENC row, with a reserved byte in it; TX_CAP equal to the escaped length, one less, and
one less than the unescaped length: the three clauses of SendsOrReports at their boundaries. -/
def AllClauses (d : List Byte) : Prop :=
  Fits (capped (escapedBytes (frameBytes d)).length).cfg d ∧
  TooLongEscaped (capped ((escapedBytes (frameBytes d)).length - 1)) d ∧
  TooLong (capped (d.length + 3)) d

def d08 : List Byte := [0x08, 0x7E] ++ nj.bytes ++ [0x41]
def d09 : List Byte := [0x09, 0x7E] ++ nj.bytes ++ []
def d17 : List Byte := [0x17, 0x01] ++ d64.bytes ++ (⟨0xFF,
    0xFE⟩ : Addr16).bytes ++ [0x02] ++ nj.bytes ++ []
def d10 : List Byte := [0x10, 0x01] ++ d64.bytes ++ (⟨0xFF, 0xFE⟩ : Addr16).bytes ++ [0, 0] ++ hi
def d11 : List Byte :=
  [0x11, 0x01] ++ d64.bytes ++ (⟨0xFF, 0xFE⟩ : Addr16).bytes ++ [0xE8, 0xE8] ++
    idBytes (.number 0x11) ++ idBytes (.raw ⟨0xC1, 0x05⟩) ++ [0, 0] ++ [0x41]
def d00 : List Byte := [0x00, 0x01] ++ d64.bytes ++ [0x00] ++ hi
def d01 : List Byte := [0x01, 0x01] ++ a16.bytes ++ [0x00] ++ hi
def d21 : List Byte :=
  [0x21, 0x00] ++ d64.bytes ++ a16.bytes ++ [0x00, BitVec.ofNat 8 1] ++
    ([0xEEFF] : List Half).flatMap be16bytes

theorem test_hyp_AtCommandIsSent :
    State.reset.txbuf.wf ∧ AllClauses d08 ∧ ({ type := 0x08 } : Message).type = 0x08 :=
  ⟨wf_nil, ⟨⟨by decide, by decide, by decide⟩, by decide, by decide⟩, rfl⟩

theorem test_hyp_QueuedAndRemoteAtCommandsAreSent :
    State.reset.txbuf.wf ∧ AllClauses d09 ∧ AllClauses d17 :=
  ⟨wf_nil, ⟨⟨by decide, by decide, by decide⟩, by decide, by decide⟩,
    ⟨by decide, by decide, by decide⟩, by decide, by decide⟩

theorem test_hyp_ZigbeeRequestsAreSent : State.reset.txbuf.wf ∧ AllClauses d10 ∧ AllClauses d11 :=
  ⟨wf_nil, ⟨⟨by decide, by decide, by decide⟩, by decide, by decide⟩,
    ⟨by decide, by decide, by decide⟩, by decide, by decide⟩

theorem test_hyp_TxRequestsAreSent : State.reset.txbuf.wf ∧ AllClauses d00 ∧ AllClauses d01 :=
  ⟨wf_nil, ⟨⟨by decide, by decide, by decide⟩, by decide, by decide⟩,
    ⟨by decide, by decide, by decide⟩, by decide, by decide⟩

/-- 255 addresses are the most that are sent, 256 the fewest that are not. -/
theorem test_hyp_SourceRouteIsSentWithIdZero :
    State.reset.txbuf.wf ∧ AllClauses d21 ∧ (List.replicate 255 (0 : Half)).length ≤ 255 ∧
    255 < (List.replicate 256 (0 : Half)).length :=
  ⟨wf_nil, ⟨⟨by decide, by decide, by decide⟩, by decide, by decide⟩,
    by rw [List.length_replicate], by rw [List.length_replicate]; decide⟩

/-- No address list, and the longest list that is not turned away before the fields are looked at. -/
theorem test_hyp_MissingRequiredFieldIsReported :
    ((({ type := 0x21 } : Message).addresses.getD []).length ≤ 255 ∧
      ({ type := 0x21 } : Message).addresses = none) ∧
    ∀ rs : List Half, rs.length = 255 →
      (({ type := 0x21, addresses := some rs } : Message).addresses.getD []).length ≤ 255 :=
  ⟨⟨by decide, rfl⟩, fun _ h => Nat.le_of_eq h⟩

theorem test_hyp_StartMarkerBeginsFrame : 0 < State.reset.cfg.rxCap.toNat := by decide

theorem test_hyp_IdleSkipsData : State.reset.waiting = true := rfl

theorem test_hyp_LengthBytesAreBigEndian :
    let s := scanned State.reset [0x7E]
    let u := scanned mode2 [0x7E, 0x01, 0x7D]
    (s.waiting = false ∧ s.cnt < s.cfg.rxCap.toNat ∧ s.cnt = 1) ∧
    (u.waiting = false ∧ u.cnt < u.cfg.rxCap.toNat ∧ u.cnt = 2 ∧ u.escPend = true) := by decide

/-- The first and the last data byte of a frame of four. -/
theorem test_hyp_FrameDataIsSummed :
    let s := scanned State.reset [0x7E, 0x00, 0x04]
    let u := scanned State.reset [0x7E, 0x00, 0x04, 0x08, 0x52, 0x4E]
    (s.waiting = false ∧ s.cnt < s.cfg.rxCap.toNat ∧ 3 ≤ s.cnt ∧ s.cnt + 1 < s.len.toNat + 4) ∧
    (u.waiting = false ∧ u.cnt < u.cfg.rxCap.toNat ∧ 3 ≤ u.cnt ∧ u.cnt + 2 = u.len.toNat + 4) := by
  decide

theorem test_hyp_OrphanByteIsStored :
    let s := scanned State.reset [0x7E, 0x00, 0x00]
    s.waiting = false ∧ s.cnt < s.cfg.rxCap.toNat ∧ 3 ≤ s.cnt ∧ s.len = 0 := by decide

theorem test_hyp_ChecksumByteCompletesFrame :
    almost.waiting = false ∧ almost.cnt < almost.cfg.rxCap.toNat ∧ 0 < almost.len.toNat ∧
    almost.cnt + 1 = almost.len.toNat + 4 := by decide

theorem test_hyp_FullBufferIsReported :
    full.waiting = false ∧ full.cfg.rxCap.toNat ≤ full.cnt := by decide

theorem test_hyp_ReceivedByteWritesOneIndex :
    (∃ t, exec .rxStart State.reset = .next t) ∧ (∃ t, exec .rxEsc mode2 = .next t) ∧
    (∃ t, exec (.rxData 0x0D) almost = .next t) ∧
    (∃ t, exec (.rxData 0x1E) full = .next t) ∧ full.cfg.rxCap.toNat ≤ full.cnt :=
  ⟨⟨_, rfl⟩, ⟨_, rfl⟩, ⟨_, rfl⟩, ⟨_, rfl⟩, by decide⟩

theorem test_hyp_ReceivedByteStepIsRxStep :
    { almost with rxq := [0x0D] }.phase = .idle ∧ { almost with rxq := [0x0D] }.rxq = [0x0D] := by
  decide

theorem test_hyp_InvariantHoldsAtPowerUp : legalConfig other.cfgInit = true := by decide

theorem test_hyp_FeedRunsToFoldOfRxStep :
    let k : Command := { code := 0x01, chunk := [0x7E, 0x00] }
    let s := { State.reset with cmdq := [k] }
    s.phase = .idle ∧ s.rxq = [] ∧ s.cmdq = k :: [] ∧ k.code = 0x01 := by decide

theorem test_hyp_SplitFeedsAgree :
    let k1 : Command := { code := 0x01, chunk := [0x7E] }
    let k2 : Command := { code := 0x01, chunk := [0x00] }
    let k : Command := { code := 0x01, chunk := [0x7E, 0x00] }
    State.reset.phase = .idle ∧ State.reset.rxq = [] ∧ k1.code = 0x01 ∧ k2.code = 0x01 ∧
    k.code = 0x01 ∧ k.chunk = k1.chunk ++ k2.chunk := by decide

theorem test_hyp_EventsOfOneReceivedByte :
    { almost with rxq := [0x0E] }.phase = .idle ∧
    (after (step { almost with rxq := [0x0E] })).isSome = true := by decide

theorem test_hyp_LeadingGarbageIsSkipped :
    let s := { State.reset with rxq := [0x00, 0xFF, 0x41, 0x7D, 0x13] ++ [0x7E] }
    s.phase = .idle ∧ s.waiting = true ∧ (0x7E : Byte) ∉ ([0x00, 0xFF, 0x41, 0x7D,
      0x13] : List Byte) := by
  decide

/-- The shortest frame in API mode 1, and one that fills its buffer in API mode 2, with an escape. -/
theorem test_hyp_SentFrameIsDelivered :
    let s := { State.reset with rxq := wireBytes State.reset.cfg [0x55] ++ [] }
    let u := { small2 with rxq := wireBytes small2.cfg [0x08, 0x7D, 0x4E, 0x4A] ++ [0x00] }
    (s.phase = .idle ∧ s.waiting = true ∧ s.rxbuf.wf ∧ s.cfg.apiMode = 1 ∧
      ([0x55] : List Byte).length + 4 ≤ s.cfg.rxCap.toNat) ∧
    (u.phase = .idle ∧ u.waiting = true ∧ u.rxbuf.wf ∧ u.cfg.apiMode = 2 ∧
      ([0x08, 0x7D, 0x4E, 0x4A] : List Byte).length + 4 ≤ u.cfg.rxCap.toNat) := by
  refine ⟨⟨rfl, rfl, wf_nil, by decide, by decide⟩, ⟨rfl, rfl, wf_nil, by decide, by decide⟩⟩

/-- A state in the middle of a frame, with a byte to come, meets the invariant. -/
theorem test_hyp_EveryStepKeepsInvariant :
    Inv { almost with rxq := [0x0D] } ∧ (after (step { almost with rxq := [0x0D] })).isSome = true ∧
    (after (stepFor other { almost with rxq := [0x0D] })).isSome = true := by
  refine ⟨⟨by decide, by decide, by decide, ?_, by decide, ?_⟩, by decide, by decide⟩
  · exact ⟨⟨by decide, by decide⟩, by decide, by decide⟩
  · exact ⟨by decide, by decide, by decide, by decide, by decide, by decide, by decide⟩

theorem test_hyp_NoErrorEndsTheBlock : State.reset.phase = .idle ∧ almost.phase = .idle := by decide

/-- Five of the six payload bytes, and one, in a frame; the cut is at the first field that is not whole. -/
theorem test_hyp_TransmitStatusDecodes :
    ([0x01, 0x7D, 0x84, 0x00, 0x00] : List Byte).length < [1, 2, 1, 1, 1].sum ∧
    cutAt [1, 2, 1, 1, 1] 5 = 5 ∧ cutAt [1, 2, 1, 1, 1] 2 = 1 ∧ cutAt [1, 2, 1, 1, 1] 0 = 0 ∧
    (framed [0x8B, 0x01, 0x7D, 0x84, 0x00, 0x00]).frame =
      some (frameBytes [0x8B, 0x01, 0x7D, 0x84, 0x00, 0x00]) := by decide

theorem test_hyp_ReceiveAndStatusFramesDecode :
    ([] : List Byte).length < [1].sum ∧ ([0x05] : List Byte).length < [1, 1].sum ∧
    aa.length < [8, 2, 1].sum ∧ (aa ++ [1, 2, 3, 4, 5, 6]).length < [8, 2, 1, 1, 2, 2, 1].sum ∧
    (a64.bytes ++ [0x28]).length < [8, 1, 1].sum ∧
    ([0x12, 0x34, 0x28] : List Byte).length < [2, 1, 1].sum ∧ (framed [0x55]).frame.isSome = true := by
  decide

/-- D14's mask (bits 0 and 7), D12's bit 4, bit 4 after two named bits, and a cut in each place: the outer
fields, the three fixed fields, the digital word, the first analog word and one after a named bit. -/
theorem test_hyp_IoSampleFrameDecodes :
    (∀ b ∈ analogBits 0x81, b ∈ namedBits) ∧
    ([0x03FF, 0x0200] : List Half).length = (analogBits 0x81).length ∧
    analogBits 0x10 = [] ++ 4 :: [] ∧ analogBits 0x93 = [0, 1] ++ 4 :: [7] ∧
    (∀ b ∈ [0, 1], b ∈ namedBits) ∧ 4 ∉ namedBits ∧ (0x001C : Half) ≠ 0 ∧
    ([1, 2, 3] : List Half).length = [0, 1].length + 1 ∧ ([1, 0, 0] : List Byte).length < 4 ∧
    ([0x03] : List Byte).length < 2 ∧ analogBits 0x81 = [0] ++ 7 :: [] ∧
    ([0x03FF] : List Half).length = [0].length ∧ (aa ++ [1, 1, 0, 0]).length < [8, 2, 1, 1, 2, 1].sum ∧
    (∀ b ∈ analogBits 0xFF, other.analogName b ≠ none) ∧
    (List.replicate 8 (0 : Half)).length = (analogBits 0xFF).length ∧
    (framed [0x55]).frame.isSome = true := by decide

theorem test_hyp_SensorFrameDecodes :
    (0x0080 : Half) ≠ 0 ∧ (aa ++ List.replicate 11 0).length < [8, 2, 1, 1, 2, 2, 2, 2, 2].sum ∧
    (framed [0x55]).frame.isSome = true := by decide

/-- A name of two bytes and none; one and seven bytes after it; nine bytes before it; and no NUL. -/
theorem test_hyp_NodeIdentificationDecodes :
    (0 : Byte) ∉ ([0x4E, 0x31] : List Byte) ∧ (0 : Byte) ∉ ([] : List Byte) ∧
    1 ≤ ([1] : List Byte).length ∧ (List.replicate 7 (1 : Byte)).length ≤ 7 ∧
    (List.replicate 9 (1 : Byte)).length < 10 ∧ aa.length < [8, 2, 1].sum ∧
    cutAt [2, 1, 1, 2, 2] 1 = 0 ∧ cutAt [2, 1, 1, 2, 2] 7 = 6 ∧ cutAt [2, 8] 9 = 2 ∧
    (framed [0x55]).frame.isSome = true := by decide

theorem test_hyp_RouteRecordDecodes :
    ([0x1122, 0x3344] : List Half).length = (2 : Byte).toNat ∧
    ([] : List Half).length = (0 : Byte).toNat ∧ ([1, 2, 3] : List Byte).length < 2 * (2 : Byte).toNat ∧
    (aa ++ [1]).length < [8, 2, 1, 1].sum ∧ (framed [0x55]).frame.isSome = true := by decide

/-- The mask of the example of R280, an analog-only mask, and no sample. -/
theorem test_hyp_LegacyIoFrameDecodes :
    let analog := fun mask : Half => (List.range 6).filter fun c => mask.getLsbD (c + 9)
    let digital := fun mask : Half => (List.range 9).filter fun c => mask.getLsbD c
    let words := fun (mask : Half) (q : Byte) => if digital mask = [] then 0 else q.toNat
    (([0x0002, 0x0000] : List Half).length = words 0x0202 2 ∧
      (∀ x ∈ ([[0x0123], [0x0145]] : List (List Half)), x.length = (analog 0x0202).length)) ∧
    (([] : List Half).length = words 0x7E00 1 ∧
      (∀ x ∈ ([[0, 1, 2, 3, 4, 5]] : List (List Half)), x.length = (analog 0x7E00).length)) ∧
    ([] : List Half).length = words 0x0202 0 ∧
    (List.replicate 7 (0 : Byte)).length < 2 * (words 0x0202 2 + (2 : Byte).toNat * (analog 0x0202).length) ∧
    ([] : List Byte).length < 2 * (words 0x7E00 1 + (1 : Byte).toNat * (analog 0x7E00).length) ∧
    ([0x12, 0x34, 0x28, 0, 2, 2] : List Byte).length < [2, 1, 1, 1, 2].sum ∧
    (framed [0x55]).frame.isSome = true := by decide

theorem test_hyp_RequestFramesDecode :
    ([0x01, 0x4E] : List Byte).length < [1, 2].sum ∧ (1 :: aa ++ [0x02, 0x4E]).length < [1, 8, 2,
      1, 2].sum ∧
    (1 :: aa ++ [0]).length < [1, 8, 2, 1, 1].sum ∧
    (1 :: aa ++ [1, 2, 3, 4, 5, 6, 7]).length < [1, 8, 2, 1, 1, 2, 2, 1, 1].sum ∧
    (1 :: a64.bytes).length < [1, 8, 1].sum ∧ ([1, 0x12, 0x34] : List Byte).length < [1, 2, 1].sum ∧
    (framed [0x55]).frame.isSome = true := by decide

/-- In API mode 2, with an escaped id, for the shortest and the longest layout. -/
theorem test_hyp_EncodedRequestsRoundTrip :
    (∃ i t w, decode (.message { type := 0x08, id := some 0x7E, command := some nj,
                                 commandParameter := some [] }) = .ok i ∧
      exec i mode2 = .next t ∧ t.results = mode2.results ++ [.encoded w]) ∧
    (∃ i t w, decode (.message
          { type := 0x11, id := some 0x7E, destination64 := some d64, destination16 := some a16,
            sourceEndpoint := some 1, destinationEndpoint := some 2,
            clusterId := some (.number 0x11), profileId := some (.number 0xC105),
            broadcastRadius := some 0, options := some 0, data := some hi }) = .ok i ∧
      exec i mode2 = .next t ∧ t.results = mode2.results ++ [.encoded w]) :=
  ⟨⟨_, _, _, rfl, rfl, rfl⟩, ⟨_, _, _, rfl, rfl, rfl⟩⟩

theorem test_hyp_AtResponsesTakeTheirBranch :
    ([0x01, 0x4E, 0x4A] : List Byte).length < [1, 2, 1].sum ∧
    (2 :: aa ++ [0x49, 0x53]).length < [1, 8, 2, 2, 1].sum ∧ (framed [0x55]).frame.isSome = true := by
  decide

theorem test_hyp_LocalAtBranchesDecode :
    (0 : Byte) ∉ ([0x4E, 0x31] : List Byte) ∧ 1 ≤ ([1] : List Byte).length ∧
    (List.replicate 7 (1 : Byte)).length ≤ 7 ∧ (List.replicate 9 (1 : Byte)).length < 10 ∧
    (framed [0x88]).frame.isSome = true := by decide

theorem test_hyp_RemoteAtBranchesDecode :
    (0 : Byte) ∉ ([0x4E, 0x31] : List Byte) ∧ (List.replicate 7 (1 : Byte)).length ≤ 7 ∧
    (List.replicate 9 (1 : Byte)).length < 10 ∧
    (1 : Byte) ≠ 0 ∧ (∀ b ∈ analogBits 0x02, b ∈ namedBits) ∧
    ([0x0200] : List Half).length = (analogBits 0x02).length ∧
    ([] : List Half).length = (analogBits 0x00).length ∧ analogBits 0x12 = [1] ++ 4 :: [] ∧
    4 ∉ namedBits ∧ ([0x0200, 0x0100] : List Half).length = [1].length + 1 ∧
    ([0x02] : List Byte).length < 2 ∧ ([1, 0] : List Byte).length < 4 ∧
    (framed [0x97]).frame.isSome = true := by decide

theorem test_hyp_UnregisteredFrameIsReportedRaw :
    (framed [0x55]).cnt ≤ (framed [0x55]).cfg.rxCap.toNat := by decide

theorem test_hyp_ConversionsAreExact :
    State.reset.cfg.convertAdc = true ∧ { State.reset.cfg with convertAdc := false }.convertAdc = false ∧
    (0x07FF : Half).toNat < 2048 ∧ 2048 ≤ (0x0800 : Half).toNat := by decide

end Sys2Proof.Tests
end

section
/-! The checksum (spec/30_encoding.md R114, R115) in natural numbers. -/

namespace Sys2Proof.Machine

theorem sumBytes_cons (b : Byte) (d : List Byte) : sumBytes (b :: d) = b + sumBytes d := rfl

/-- The 8-bit sum is the sum of the bytes' values, reduced. -/
theorem sumBytes_toNat (d : List Byte) : (sumBytes d).toNat = (d.map BitVec.toNat).sum % 256 := by
  induction d with
  | nil => rfl
  | cons b d ih =>
    rw [sumBytes_cons, BitVec.toNat_add, ih, List.map_cons, List.sum_cons]
    omega

/-- `0xFF` is the byte of all ones, and a difference from that byte is a complement. -/
theorem checksum_eq_not (d : List Byte) : checksum d = ~~~(sumBytes d) :=
  BitVec.allOnes_sub_eq_not (sumBytes d)

/-- R114: the checksum as a number. -/
theorem checksum_toNat (d : List Byte) :
    (checksum d).toNat = 255 - (d.map BitVec.toNat).sum % 256 := by
  rw [checksum_eq_not, BitVec.toNat_not, sumBytes_toNat]

/-- R115: the checksum is the only byte that completes the sum to 0xFF. -/
theorem eq_checksum_iff (d : List Byte) (c : Byte) :
    c = checksum d ↔ ((d.map BitVec.toNat).sum + c.toNat) % 256 = 255 := by
  have hc : c.toNat < 256 := c.isLt
  rw [← BitVec.toNat_inj, checksum_toNat]
  omega

/-- Settles O22: the sum is taken in natural numbers, where the complement is the difference from 255. -/
theorem checksumComplementsSum : Obligations.ChecksumComplementsSum := by
  unfold Obligations.ChecksumComplementsSum
  exact ⟨checksum_toNat, checksum_eq_not, eq_checksum_iff, rfl⟩

end Sys2Proof.Machine
end

section
/-! The class of a received byte (spec/30_encoding.md R121), and the byte that RX_DATA writes. -/

namespace Sys2Proof.Machine

/-- A start marker that stands for itself begins a frame. -/
theorem decode_rxByte_start {ctx : RxContext}
    (h : ctx.waiting = true ∨ (ctx.escapedMode = true ∧ ctx.escPend = false)) :
    decode (.rxByte ctx 0x7E) = .ok .rxStart :=
  congrArg Except.ok (if_pos ⟨rfl, h⟩)

/-- An escape marker in API mode 2 is an escape, whatever the state. -/
theorem decode_rxByte_escape {ctx : RxContext} (h : ctx.escapedMode = true) :
    decode (.rxByte ctx 0x7D) = .ok .rxEsc :=
  congrArg Except.ok <| (if_neg fun hs => absurd hs.1 (by decide)).trans (if_pos ⟨rfl, h⟩)

/-- Every byte of neither class above is data. -/
theorem decode_rxByte_data {ctx : RxContext} {b : Byte}
    (hs : b = 0x7E → ¬(ctx.waiting = true ∨ (ctx.escapedMode = true ∧ ctx.escPend = false)))
    (he : b = 0x7D → ctx.escapedMode = false) :
    decode (.rxByte ctx b) = .ok (.rxData b) :=
  congrArg Except.ok <| (if_neg fun h => hs h.1 h.2).trans
    (if_neg fun h => Bool.false_ne_true ((he h.1).symm.trans h.2))

@[simp] theorem State.complete_rxbuf (s : State) (v : Byte) : (s.complete v).rxbuf = s.rxbuf := by
  simp only [State.complete_eq]

/-- An append with room writes its byte at CNT; no interpretation of the byte touches RXBUF again. -/
theorem State.append_rxbuf {s : State} (v : Byte) (h : s.cnt < s.cfg.rxCap.toNat) :
    (s.append v).rxbuf = s.rxbuf.write s.cnt v := by
  obtain ⟨hfull, -⟩ | ⟨-, u, rfl, hu⟩ := s.append_cases v
  · omega
  · obtain ⟨-, e⟩ | ⟨-, e⟩ | ⟨-, e⟩ | ⟨-, e⟩ | ⟨-, e⟩ | ⟨-, e⟩ := hu <;> simp [e]

/-- RX_DATA inside a frame appends the unescaped byte (R305, R306). -/
theorem exec_rxData_of_scanning {s : State} (b : Byte) (h : s.waiting = false) :
    exec (.rxData b) s =
      .next (State.append { s with last := s.unescaped b, escPend := false } (s.unescaped b)) := by
  simp only [exec, execRxData, h, Bool.false_eq_true, if_false]

/-- With an escape pending a received byte loses its escape bit (R305). -/
theorem State.unescaped_of_pending {s : State} (b : Byte) (h : s.escPend = true) :
    s.unescaped b = b ^^^ 0x20 :=
  if_pos h

/-- A start marker received as data with an escape pending is written as 0x5E. -/
theorem exec_rxData_start_of_pending {s : State} (hw : s.waiting = false) (hp : s.escPend = true)
    (hroom : s.cnt < s.cfg.rxCap.toNat) :
    ∃ t, exec (.rxData 0x7E) s = .next t ∧ t.rxbuf = s.rxbuf.write s.cnt 0x5E := by
  have hv : s.unescaped 0x7E = 0x5E := State.unescaped_of_pending 0x7E hp
  exact ⟨_, exec_rxData_of_scanning 0x7E hw, hv ▸ State.append_rxbuf _ hroom⟩

/-- Settles O4, class by class: each row of R121's table meets the hypotheses of one class's lemma. -/
theorem byteClassByModeAndState : Obligations.ByteClassByModeAndState := by
  unfold Obligations.ByteClassByModeAndState
  refine ⟨fun s => exec_rxData_start_of_pending, fun ctx b => ⟨?_, ?_, ?_, ?_, ?_⟩⟩
  · rintro - hw rfl
    exact decode_rxByte_start (.inl hw)
  · rintro hm hstate rfl
    exact decode_rxByte_start (hstate.imp_right fun hp => ⟨hm, hp⟩)
  · rintro hm rfl
    exact decode_rxByte_escape hm
  · intro hm hdata
    have hs : b = 0x7E → ctx.waiting = false := fun hb => hdata.resolve_right (absurd hb)
    exact decode_rxByte_data (by simpa [hm] using hs) fun _ => hm
  · intro hm hne hdata
    have hs : b = 0x7E → ctx.waiting = false ∧ ctx.escPend = true := fun hb =>
      hdata.resolve_left (absurd hb)
    exact decode_rxByte_data (by simpa [hm] using hs) fun hb => absurd hb hne

end Sys2Proof.Machine
end

section
/-! Escape and Unescape (spec/40_escaping.md R118, R161). -/

namespace Sys2Proof.Machine

/-- A reserved byte is sent as the marker and the masked byte. -/
theorem escapeByte_of_reserved {b : Byte} {P : Parameters} (h : reserved b P = true) :
    escapeByte b P = [Config.escapeMarker, b ^^^ Config.escapeXor] :=
  if_pos h

/-- Any other byte is sent as it is. -/
theorem escapeByte_of_not_reserved {b : Byte} {P : Parameters} (h : reserved b P ≠ true) :
    escapeByte b P = [b] :=
  if_neg h

/-- The escape marker is reserved whatever the flow-control bytes. -/
theorem reserved_escapeMarker (P : Parameters) : reserved Config.escapeMarker P = true := by
  simp [reserved]

/-- A marker is dropped and the byte after it loses the mask. -/
theorem unescapeTail_marker_cons (c : Byte) (r : List Byte) :
    unescapeTail (Config.escapeMarker :: c :: r) = (c ^^^ Config.escapeXor) :: unescapeTail r := by
  rw [unescapeTail, if_pos rfl]

/-- A byte that is no marker is kept, at the end of the sequence too. -/
theorem unescapeTail_cons_of_ne {b : Byte} (h : b ≠ Config.escapeMarker) (r : List Byte) :
    unescapeTail (b :: r) = b :: unescapeTail r := by
  cases r with
  | nil => simp only [unescapeTail, if_neg h]
  | cons c r => simp only [unescapeTail, if_neg h]

/-- Unescape reads one byte's escape sequence back as that byte: the mask is its own inverse, and a byte sent
as it is cannot be taken for a marker, because the marker is reserved. -/
theorem unescapeTail_escapeByte_append (b : Byte) (r : List Byte) (P : Parameters) :
    unescapeTail (escapeByte b P ++ r) = b :: unescapeTail r := by
  by_cases hb : reserved b P = true
  · calc unescapeTail (escapeByte b P ++ r)
        = unescapeTail (Config.escapeMarker :: (b ^^^ Config.escapeXor) :: r) := by
          rw [escapeByte_of_reserved hb]; rfl
      _ = b :: unescapeTail r := by
          rw [unescapeTail_marker_cons, BitVec.xor_assoc, BitVec.xor_self, BitVec.xor_zero]
  · have hne : b ≠ Config.escapeMarker := fun h => hb (h ▸ reserved_escapeMarker P)
    rw [escapeByte_of_not_reserved hb, List.singleton_append, unescapeTail_cons_of_ne hne]

/-- After the first byte, unescaping reads the escape sequences back one by one. -/
theorem unescapeTail_flatMap_escapeByte (s : List Byte) (P : Parameters) :
    unescapeTail (s.flatMap fun b => escapeByte b P) = s := by
  induction s with
  | nil => rfl
  | cons b s ih => rw [List.flatMap_cons, unescapeTail_escapeByte_append, ih]

/-- R163 whatever the flow-control bytes: the first byte is copied by both functions (R160). -/
theorem unescape_escape (P : Parameters) (s : List Byte) : unescape (escape s P) = s := by
  cases s with
  | nil => rfl
  | cons b s => exact congrArg (b :: ·) (unescapeTail_flatMap_escapeByte s P)

/-- Settles O19: the default parameters are one case of the round trip at any parameters. -/
theorem unescapeInvertsEscape : Obligations.UnescapeInvertsEscape := by
  unfold Obligations.UnescapeInvertsEscape
  exact ⟨unescape_escape Params.default, unescape_escape⟩

end Sys2Proof.Machine
end

section
/-! The frame-id counter (spec/41_encoder.md R182). -/

namespace Sys2Proof.Machine

/-- A byte at 255 or above is 255. -/
theorem le_toNat_iff_eq_ff (b : Byte) : 255 ≤ b.toNat ↔ b = 0xFF := by
  constructor
  · intro h
    have hlt : b.toNat < 256 := b.isLt
    exact BitVec.eq_of_toNat_eq (show b.toNat = 255 by omega)
  · rintro rfl
    exact Nat.le_refl 255

/-- R182's pseudocode compares the counter as a number; the model compares the byte. -/
theorem nextFid_eq_ite_toNat (fid : Byte) :
    nextFid fid = if 255 ≤ fid.toNat then 1 else fid + 1 := by
  simp only [nextFid, le_toNat_iff_eq_ff]

/-- NEXT_FRAME_ID writes the counter and appends its new value to the results. -/
theorem exec_nextFrameId (s : State) :
    exec .nextFrameId s = .next { s with
      fid := nextFid s.fid
      results := s.results ++ [.frameId (nextFid s.fid)] } :=
  rfl

/-- Settles O12: the effect by the row's equation, the nonzero value by `nextFid_ne_zero`, both with the next
value read as R182's pseudocode writes it. -/
theorem nextFrameIdReturnsAdvancedCounter : Obligations.NextFrameIdReturnsAdvancedCounter := by
  unfold Obligations.NextFrameIdReturnsAdvancedCounter
  intro s
  rw [← nextFid_eq_ite_toNat]
  exact ⟨exec_nextFrameId s, nextFid_ne_zero s.fid⟩

end Sys2Proof.Machine
end

section
/-! The conversions of the decoder (spec/42_decoder.md R264, R270, R271) against their exact values. -/

namespace Sys2Proof.Machine

/-- R264's integer form rounds `x / 1023` to nearest, and no tie occurs: twice `x` is even and 1023 is odd, so the
division by 2046 leaves a remainder. -/
theorem div2046_nearest (x : Nat) :
    2046 * ((2 * x + 1023) / 2046) < 2 * x + 1023 ∧ 2 * x < 2046 * ((2 * x + 1023) / 2046) + 1023 := by
  have hrem : (2 * x + 1023) % 2046 ≠ 0 := by omega
  omega

/-- A raw sample times the reference has at most 32 bits. -/
theorem half_mul_half_lt (v w : Half) : v.toNat * w.toNat < 2 ^ 32 :=
  calc v.toNat * w.toNat
      < 2 ^ 16 * 2 ^ 16 := Nat.mul_lt_mul'' v.isLt w.isLt
    _ = 2 ^ 32 := rfl

theorem scaleAdc_raw {c : ConfigRegs} (h : c.convertAdc = false) (raw : Half) :
    scaleAdc c raw = raw.toNat :=
  if_neg (by simp [h])

theorem scaleAdc_converted {c : ConfigRegs} (h : c.convertAdc = true) (raw : Half) :
    scaleAdc c raw = (2 * raw.toNat * c.vrefAdc.toNat + 1023) / 2046 :=
  if_pos h

/-- The low 11 bits of the temperature word as a number (R271). -/
theorem and_7FF_toNat (t : Half) : (t &&& 0x7FF).toNat = t.toNat % 2048 :=
  (BitVec.toNat_and t 0x7FF).trans (Nat.and_two_pow_sub_one_eq_mod t.toNat 11)

/-- R270: 5.1 times 1000 over 255 is 20. -/
theorem sensorMv_exact (raw : Half) :
    ((sensorMv raw : Nat) : Rat) = (raw.toNat : Rat) * (51 / 10) * 1000 / 255 := by
  rw [sensorMv]
  push_cast
  ring

theorem temp16_of_lt {t : Half} (h : t.toNat < 2048) : temp16 t = (t.toNat : Int) :=
  if_pos h

theorem temp16_of_le {t : Half} (h : 2048 ≤ t.toNat) : temp16 t = -((t.toNat % 2048 : Nat) : Int) := by
  rw [temp16, if_neg (Nat.not_lt.2 h), and_7FF_toNat]

/-- Settles O60: the scaling by the rounding lemma on the product of sample and reference, the rest by each
conversion's equation. -/
theorem conversionsAreExact : Obligations.ConversionsAreExact := by
  unfold Obligations.ConversionsAreExact
  refine ⟨fun c raw => ⟨fun h => scaleAdc_raw h raw, fun h => ?_⟩,
    fun raw => ⟨rfl, sensorMv_exact raw⟩, fun t => ⟨temp16_of_lt, temp16_of_le⟩⟩
  have hlt : raw.toNat * c.vrefAdc.toNat < 2 ^ 32 := half_mul_half_lt raw c.vrefAdc
  obtain ⟨hlow, hhigh⟩ := div2046_nearest (raw.toNat * c.vrefAdc.toNat)
  rw [scaleAdc_converted h, Nat.mul_assoc]
  exact ⟨rfl, hlow, hhigh, by omega⟩

end Sys2Proof.Machine
end

section
/-! How a parser ends on the bytes of its layout, and what its row then reports (spec/42_decoder.md R230 to
R233, spec/43_reassembler.md R314). -/

namespace Sys2Proof.Machine

/-- A parser answers a value from a cursor, wherever it leaves the cursor. -/
def Parse.Yields {α : Type} (x : Parse α) (c : Cursor) (a : α) : Prop :=
  ∃ c', x c = .ok (a, c')

theorem Parse.Yields.pure {α : Type} (a : α) (c : Cursor) : (Pure.pure a : Parse α).Yields c a :=
  ⟨c, rfl⟩

/-- A field read, then the rest of the layout from the cursor after it. -/
theorem Parse.Yields.bind {α β : Type} {x : Parse α} {f : α → Parse β} {c c' : Cursor} {a : α} {b : β}
    (hx : x c = .ok (a, c')) (hf : (f a).Yields c' b) : Parse.Yields (x >>= f) c b := by
  obtain ⟨c'', hf⟩ := hf
  exact ⟨c'', (Parse.bind_ok hx).trans hf⟩

/-- A parser row whose parser answers a message reports it and changes nothing else. -/
theorem State.parseRow_message {s : State} {P : Parameters} {ty : FrameType} {x : Parser} {p : List Byte}
    {m : Message} (hx : P.decReg ty = some x)
    (h : (x P.toValues s.cfg { type := P.tag ty }).Yields ⟨0, p⟩ (.message m)) :
    s.parseRow P ty p = .next (s.emit (.frameObject m)) := by
  obtain ⟨c', h⟩ := h
  simp only [State.parseRow, hx, State.parseWith, h]

/-- A parser row whose parser fails reports the failure with the raw frame. -/
theorem State.parseRow_error {s : State} {P : Parameters} {ty : FrameType} {x : Parser} {p f : List Byte}
    {e : ParseFail} (hx : P.decReg ty = some x)
    (h : x P.toValues s.cfg { type := P.tag ty } ⟨0, p⟩ = .error e) (hf : s.frame = some f) :
    s.parseRow P ty p = .next (s.emit (.decodeError e f)) := by
  simp only [State.parseRow, hx, State.parseWith, h, State.decodeFailed, hf]

/-- A row whose parser answers a message delivers it. -/
theorem delivers_of_yields {row : List Byte → Instr} {ty : FrameType} {x : Parser} {s : State}
    {p : List Byte} {m : Message} (hrow : ∀ p s, exec (row p) s = s.parseRow Params.default ty p)
    (hx : Params.default.decReg ty = some x)
    (h : (x Params.default.toValues s.cfg { type := Params.default.tag ty }).Yields ⟨0, p⟩ (.message m)) :
    Delivers (row p) s m :=
  (hrow p s).trans (State.parseRow_message hx h)

/-- A row whose parser cuts short payloads in its first fields fails them there: the cursor starts at 0. -/
theorem failsShort_of_cuts {row : List Byte → Instr} {ty : FrameType} {x : Parser} {widths : List Nat}
    (hrow : ∀ p s, exec (row p) s = s.parseRow Params.default ty p)
    (hx : Params.default.decReg ty = some x) (hcuts : ∀ V c m, (x V c m).Cuts widths) :
    FailsShort row widths := by
  intro s p hp f hf
  have hcut := hcuts Params.default.toValues s.cfg { type := Params.default.tag ty } ⟨0, p⟩ hp
  rw [Nat.zero_add] at hcut
  rw [hrow]
  exact State.parseRow_error hx hcut hf

end Sys2Proof.Machine
end

section
/-! ZIGBEE_TRANSMIT_STATUS (spec/42_decoder.md R256). -/

namespace Sys2Proof.Machine

theorem exec_decZigbeeTransmitStatus (p : List Byte) (s : State) :
    exec (.decZigbeeTransmitStatus p) s = s.parseRow Params.default .zigbeeTransmitStatus p := rfl

/-- The five fields are read in order, and the bytes after them are left. -/
theorem parseZigbeeTransmitStatus_yields (V : Values) (c : ConfigRegs) (m : Message) (pos : Nat)
    (i r d v : Byte) (n : Addr16) (rest : List Byte) :
    (parseZigbeeTransmitStatus V c m).Yields ⟨pos, i :: (n.bytes ++ r :: d :: v :: rest)⟩
      (.message { m with
        id := some i, remote16 := some n, transmitRetryCount := some r, deliveryStatus := some d,
        discoveryStatus := some v }) :=
  .bind (readU8_cons ..) <| .bind (readA16_bytes ..) <| .bind (readU8_cons ..) <|
    .bind (readU8_cons ..) <| .bind (readU8_cons ..) <| .pure ..

theorem parseZigbeeTransmitStatus_cuts (V : Values) (c : ConfigRegs) (m : Message) :
    (parseZigbeeTransmitStatus V c m).Cuts [1, 2, 1, 1, 1] :=
  readU8_takes.bind_cuts fun _ => readA16_takes.bind_cuts fun _ => readU8_takes.bind_cuts fun _ =>
    readU8_takes.bind_cuts fun _ => readU8_takes.bind_cuts fun _ => .nil _

/-- Settles O47: the row runs its parser, which reads the five fields or stops at the first that is cut. -/
theorem transmitStatusDecodes : Obligations.TransmitStatusDecodes := by
  unfold Obligations.TransmitStatusDecodes
  refine ⟨fun s i r d v n rest => ?_,
    failsShort_of_cuts exec_decZigbeeTransmitStatus rfl parseZigbeeTransmitStatus_cuts⟩
  exact delivers_of_yields exec_decZigbeeTransmitStatus rfl (parseZigbeeTransmitStatus_yields ..)

end Sys2Proof.Machine
end

section
/-! What an ENCODE that returned bytes has sent (spec/41_encoder.md R181, R183, R190). -/

namespace Sys2Proof.Machine

/-- A tag with an ENC row runs its type's serializer on the whole message (R185): the row puts the fields it
takes apart back. -/
theorem exec_of_decode_message {m : Message} {i : Instr} (h : decode (.message m) = .ok i) :
    ∃ ty, Params.default.serializerType m.type = some ty ∧
      ∀ s, exec i s = s.serialize Params.default ty m := by
  simp only [decode, decodeMessage] at h
  split at h <;> cases h <;> exact ⟨_, ‹_›, fun _ => rfl⟩

/-- A transmit that returned bytes returned the wire frame of its data. -/
theorem State.transmit_encoded {s : State} {d w : List Byte} {P : Parameters}
    (h : (s.transmit d P).results = s.results ++ [.encoded w]) : w = wireFrame s.cfg d P := by
  obtain ⟨-, e⟩ | ⟨-, e⟩ | ⟨-, e⟩ := s.transmit_cases d P <;> rw [e] at h
  · simp at h
  · simp at h
  · simpa using h.symm

/-- A serializer that returned bytes, of a message given its id, sent the type, that id and the fields. -/
theorem State.serialize_encoded {s t : State} {P : Parameters} {ty : FrameType} {ser : Serializer}
    {m : Message} {i : Byte} {w : List Byte} (hser : P.encReg ty = some ser) (hid : ser.hasId = true)
    (hty : ty ≠ .createSourceRoute) (hi : m.id = some i) (h : s.serialize P ty m = .next t)
    (hw : t.results = s.results ++ [.encoded w]) :
    w = wireFrame s.cfg (m.type :: i :: ser.fields P.toValues m) P := by
  have hsend : s.sendFields P ty ser m = s.transmit (m.type :: i :: ser.fields P.toValues m) P := by
    simp only [State.sendFields, hid, if_true, State.assignId, if_neg hty, hi]
  simp only [State.serialize, hser, hsend] at h
  split at h
  · split at h <;> cases h
    case h_1 => simp at hw
    case h_2 => exact State.transmit_encoded hw
  · cases h
    simp at hw

/-- Unescaped where API mode 2 has escaped it, the wire frame is the frame (R190, R163). -/
theorem unescaped_wireFrame (c : ConfigRegs) (d : List Byte) (P : Parameters) :
    (if c.apiMode = 2 then unescape (wireFrame c d P) else wireFrame c d P) = frameOf d := by
  by_cases h : c.apiMode = 2
  · have hmode : c.escapedMode = true := beq_iff_eq.2 h
    rw [if_pos h, wireFrame, if_pos hmode, unescape_escape]
  · have hmode : ¬c.escapedMode = true := fun e => h (beq_iff_eq.1 e)
    rw [if_neg h, wireFrame, if_neg hmode]

/-- The payload after type of a frame: what lies between its four header and tag bytes and its checksum. -/
theorem frameOf_payload (tag : Byte) (p : List Byte) : ((frameOf (tag :: p)).drop 4).dropLast = p :=
  List.dropLast_concat

/-- `Decode` of a tag whose parser answers a message is that message (R230). -/
theorem refDecode_message {c : ConfigRegs} {tag : Byte} {p : List Byte} {P : Parameters} {ty : FrameType}
    {x : Parser} {m : Message} (hty : P.parserType tag = some ty) (hx : P.decReg ty = some x)
    (h : (x P.toValues c { type := tag }).Yields ⟨0, p⟩ (.message m)) :
    refDecode c tag p P = some (.ok m) := by
  obtain ⟨c', h⟩ := h
  simp only [refDecode, hty, Option.bind_some, hx, Option.map_some]
  exact congrArg some (Parse.runOn_ok (Parse.bind_ok h))

/-- R289 for one type: its parser reads back what its serializer writes after the type. -/
theorem roundTrips_of_yields {m m' : Message} {ty : FrameType} {ser : Serializer} {x : Parser} {i : Byte}
    (hsertype : Params.default.serializerType m.type = some ty)
    (hser : Params.default.encReg ty = some ser) (hid : ser.hasId = true) (hi : m.id = some i)
    (hparsertype : Params.default.parserType m.type = some ty) (hx : Params.default.decReg ty = some x)
    (h : ∀ V c, (x V c { type := m.type }).Yields ⟨0, i :: ser.fields V m⟩ (.message m')) :
    RoundTrips m m' := by
  intro instr s t w hdecode hexec hw
  obtain ⟨ty', hty', hrow⟩ := exec_of_decode_message hdecode
  obtain rfl : ty = ty' := Option.some.inj (hsertype.symm.trans hty')
  have hty : ty ≠ .createSourceRoute := by
    rintro rfl
    cases hx
  rw [hrow] at hexec
  rw [State.serialize_encoded hser hid hty hi hexec hw, unescaped_wireFrame, frameOf_payload]
  exact refDecode_message hparsertype hx (h _ _)

end Sys2Proof.Machine
end

section
/-! The parsers of the seven requests on the bytes of their layouts (spec/42_decoder.md R283 to R288). -/

namespace Sys2Proof.Machine

variable (V : Values) (cfg : ConfigRegs) (m : Message) (pos : Nat)

theorem parseAtRequest_yields (i : Byte) (c : Ascii2) (x : List Byte) :
    (parseAtRequest V cfg m).Yields ⟨pos, i :: (c.bytes ++ x)⟩
      (.message { m with id := some i, command := some c, commandParameter := some x }) :=
  .bind (readU8_cons ..) <| .bind (readAscii2_bytes ..) <| .bind (readRest_eq ..) <| .pure ..

theorem parseRemoteAtCommandRequest_yields (i o : Byte) (a : Addr64) (n : Addr16) (c : Ascii2)
    (x : List Byte) :
    (parseRemoteAtCommandRequest V cfg m).Yields
      ⟨pos, i :: (a.bytes ++ (n.bytes ++ o :: (c.bytes ++ x)))⟩
      (.message { m with
        id := some i, destination64 := some a, destination16 := some n, remoteCommandOptions := some o,
        command := some c, commandParameter := some x }) :=
  .bind (readU8_cons ..) <| .bind (readA64_bytes ..) <| .bind (readA16_bytes ..) <|
    .bind (readU8_cons ..) <| .bind (readAscii2_bytes ..) <| .bind (readRest_eq ..) <| .pure ..

theorem parseZigbeeTransmitRequest_yields (i r o : Byte) (a : Addr64) (n : Addr16) (x : List Byte) :
    (parseZigbeeTransmitRequest V cfg m).Yields
      ⟨pos, i :: (a.bytes ++ (n.bytes ++ r :: o :: x))⟩
      (.message { m with
        id := some i, destination64 := some a, destination16 := some n, broadcastRadius := some r,
        options := some o, data := some x }) :=
  .bind (readU8_cons ..) <| .bind (readA64_bytes ..) <| .bind (readA16_bytes ..) <|
    .bind (readU8_cons ..) <| .bind (readU8_cons ..) <| .bind (readRest_eq ..) <| .pure ..

theorem parseExplicitAddressing_yields (i se de r o : Byte) (a : Addr64) (n : Addr16) (cl pr : Half)
    (x : List Byte) :
    (parseExplicitAddressing V cfg m).Yields
      ⟨pos, i :: (a.bytes ++ (n.bytes ++ se :: de :: (be16bytes cl ++ (be16bytes pr ++ r :: o :: x))))⟩
      (.message { m with
        id := some i, destination64 := some a, destination16 := some n, sourceEndpoint := some se,
        destinationEndpoint := some de, clusterId := some (.number cl), profileId := some (.number pr),
        broadcastRadius := some r, options := some o, data := some x }) :=
  .bind (readU8_cons ..) <| .bind (readA64_bytes ..) <| .bind (readA16_bytes ..) <|
    .bind (readU8_cons ..) <| .bind (readU8_cons ..) <| .bind (readU16_bytes ..) <|
    .bind (readU16_bytes ..) <| .bind (readU8_cons ..) <| .bind (readU8_cons ..) <|
    .bind (readRest_eq ..) <| .pure ..

theorem parseTxRequest64_yields (i o : Byte) (a : Addr64) (x : List Byte) :
    (parseTxRequest64 V cfg m).Yields ⟨pos, i :: (a.bytes ++ o :: x)⟩
      (.message { m with
        id := some i, destination64 := some a, options := some o, data := some x }) :=
  .bind (readU8_cons ..) <| .bind (readA64_bytes ..) <| .bind (readU8_cons ..) <|
    .bind (readRest_eq ..) <| .pure ..

theorem parseTxRequest16_yields (i o : Byte) (n : Addr16) (x : List Byte) :
    (parseTxRequest16 V cfg m).Yields ⟨pos, i :: (n.bytes ++ o :: x)⟩
      (.message { m with
        id := some i, destination16 := some n, options := some o, data := some x }) :=
  .bind (readU8_cons ..) <| .bind (readA16_bytes ..) <| .bind (readU8_cons ..) <|
    .bind (readRest_eq ..) <| .pure ..

end Sys2Proof.Machine
end

section
/-! R289: what the seven requests encode is decoded back (spec/42_decoder.md). -/

namespace Sys2Proof.Machine

/-- Both forms of an id are on the wire as its number, big-endian (R85, R192). -/
theorem idBytes_eq_be16bytes (x : Id16) : idBytes x = be16bytes (idValue x) := by
  cases x with
  | number v => rfl
  | raw a => exact (be16bytes_be16 a.b0 a.b1).symm

/-- The bytes of EXPLICIT_ADDRESSING_ZIGBEE_COMMAND_FRAME do not depend on the form of its two ids. -/
theorem serializeExplicitAddressing_fields_number (V : Values) (m : Message) (cl pr : Id16) :
    serializeExplicitAddressing.fields V { m with clusterId := some cl, profileId := some pr } =
      serializeExplicitAddressing.fields V { m with
        clusterId := some (.number (idValue cl)), profileId := some (.number (idValue pr)) } := by
  simp only [serializeExplicitAddressing, fieldBytes, idBytes_eq_be16bytes cl, idBytes_eq_be16bytes pr]
  rfl

/-- Settles O55, type by type: with every optional field given, the serializer's fields compute to the bytes
that the parser's lemma reads; the two ids are first brought to their number form. -/
theorem encodedRequestsRoundTrip : Obligations.EncodedRequestsRoundTrip := by
  unfold Obligations.EncodedRequestsRoundTrip
  intro i se de r o a n cl pr c x
  refine ⟨?_, ?_, (idBytes_eq_be16bytes cl).symm, (idBytes_eq_be16bytes pr).symm⟩
  · simp only [List.forall_mem_cons]
    refine ⟨?_, ?_, ?_, ?_, ?_, ?_, List.forall_mem_nil _⟩
    · exact roundTrips_of_yields (ty := .atCommand) rfl rfl rfl rfl rfl rfl
        fun V cfg => parseAtRequest_yields V cfg _ 0 i c x
    · exact roundTrips_of_yields (ty := .atCommandQueueParameterValue) rfl rfl rfl rfl rfl rfl
        fun V cfg => parseAtRequest_yields V cfg _ 0 i c x
    · exact roundTrips_of_yields (ty := .remoteAtCommandRequest) rfl rfl rfl rfl rfl rfl
        fun V cfg => parseRemoteAtCommandRequest_yields V cfg _ 0 i o a n c x
    · exact roundTrips_of_yields (ty := .zigbeeTransmitRequest) rfl rfl rfl rfl rfl rfl
        fun V cfg => parseZigbeeTransmitRequest_yields V cfg _ 0 i r o a n x
    · exact roundTrips_of_yields (ty := .txRequest64) rfl rfl rfl rfl rfl rfl
        fun V cfg => parseTxRequest64_yields V cfg _ 0 i o a x
    · exact roundTrips_of_yields (ty := .txRequest16) rfl rfl rfl rfl rfl rfl
        fun V cfg => parseTxRequest16_yields V cfg _ 0 i o n x
  · refine roundTrips_of_yields (ty := .explicitAddressingZigbeeCommandFrame) rfl rfl rfl rfl rfl rfl
      fun V cfg => ?_
    rw [serializeExplicitAddressing_fields_number V
      { type := 0x11, id := some i, destination64 := some a, destination16 := some n,
        sourceEndpoint := some se, destinationEndpoint := some de, broadcastRadius := some r,
        options := some o, data := some x }]
    exact parseExplicitAddressing_yields V cfg _ 0 i se de r o a n (idValue cl) (idValue pr) x

end Sys2Proof.Machine
end

section
/-! The step of a received byte by case (spec/43_reassembler.md R302 to R311): what is skipped, what is consumed,
what is written. -/

namespace Sys2Proof.Machine

/-- RX_ESC leaves the escape pending and consumes its byte (R304). -/
theorem exec_rxEsc (s : State) : exec .rxEsc s = .next { s with escPend := true, last := 0x7D } := rfl

/-- RX_DATA in Idle touches its two scratch registers only (R302, R305). -/
theorem exec_rxData_of_waiting {s : State} (b : Byte) (h : s.waiting = true) :
    exec (.rxData b) s = .next { s with escPend := false, last := s.unescaped b } := by
  simp only [exec, execRxData, h, if_true]

/-- With the buffer full a byte is dropped and the fault ends the frame (R307). -/
theorem State.append_of_full {s : State} (v : Byte) (h : s.cfg.rxCap.toNat ≤ s.cnt) :
    s.append v = State.emit { s with waiting := true } (.capacityExceeded s.cfg.rxCap.toNat) :=
  if_neg (Nat.not_lt.2 h)

/-- With room a byte is written at CNT and then interpreted (R306). -/
theorem State.append_of_room {s : State} (v : Byte) (h : s.cnt < s.cfg.rxCap.toNat) :
    s.append v = State.interpret { s with rxbuf := s.rxbuf.write s.cnt v, cnt := s.cnt + 1 } v :=
  if_pos h

/-- RX_DATA inside a frame, with room (R305, R306). -/
theorem exec_rxData_of_room {s : State} (b : Byte) (hw : s.waiting = false)
    (hroom : s.cnt < s.cfg.rxCap.toNat) :
    exec (.rxData b) s =
      .next (State.interpret { s with
        escPend := false, last := s.unescaped b, rxbuf := s.rxbuf.write s.cnt (s.unescaped b)
        cnt := s.cnt + 1 } (s.unescaped b)) :=
  (exec_rxData_of_scanning b hw).trans (congrArg Host.Outcome.next (State.append_of_room _ hroom))

/-- The second byte of a frame is the high byte of the length (R309). -/
theorem State.interpret_lengthHigh {s : State} (v : Byte) (h : s.cnt = 2) :
    s.interpret v = { s with len := v.setWidth 16 <<< 8 } := by
  rw [State.interpret, if_neg (by omega), if_pos h]

/-- The third byte of a frame is the low byte of the length (R310). -/
theorem State.interpret_lengthLow {s : State} (v : Byte) (h : s.cnt = 3) :
    s.interpret v = { s with len := s.len + v.setWidth 16 } := by
  rw [State.interpret, if_neg (by omega), if_neg (by omega), if_pos h]

/-- Offsets 4 to length + 3 are frame data (R311). -/
theorem State.interpret_data {s : State} (v : Byte) (h : 3 < s.cnt) (hlen : s.cnt < s.len.toNat + 4) :
    s.interpret v = { s with sum := s.sum + v } := by
  rw [State.interpret, if_neg (by omega), if_neg (by omega), if_neg (by omega), if_pos hlen]

/-- The value of a big-endian half (R13). -/
theorem be16_toNat (h l : Byte) : (be16 h l).toNat = h.toNat * 256 + l.toNat :=
  calc (be16 h l).toNat
      = h.toNat <<< 8 ||| l.toNat := BitVec.toNat_append h l
    _ = h.toNat <<< 8 + l.toNat := (Nat.shiftLeft_add_eq_or_of_lt l.isLt _).symm
    _ = h.toNat * 256 + l.toNat := by rw [Nat.shiftLeft_eq]

/-- With no low byte the value is the high byte's. -/
theorem be16_zero_toNat (h : Byte) : (be16 h 0).toNat = h.toNat * 256 := by
  simp [be16_toNat]

/-- R309's shift leaves the high byte of a half whose low byte is 0. -/
theorem shiftLeft_eq_be16 (v : Byte) : v.setWidth 16 <<< 8 = be16 v 0 := by
  apply BitVec.eq_of_toNat_eq
  have hv : v.toNat < 256 := v.isLt
  rw [be16_zero_toNat, BitVec.toNat_shiftLeft, BitVec.toNat_setWidth, Nat.shiftLeft_eq]
  omega

/-- R310's addition fills in the low byte, without a carry. -/
theorem be16_zero_add (h l : Byte) : be16 h 0 + l.setWidth 16 = be16 h l := by
  apply BitVec.eq_of_toNat_eq
  have hh : h.toNat < 256 := h.isLt
  have hl : l.toNat < 256 := l.isLt
  rw [BitVec.toNat_add, be16_zero_toNat, be16_toNat, BitVec.toNat_setWidth]
  omega

/-- Settles O30: the class by the decoder's lemmas for the escape marker, the effect by the row's equation. -/
theorem escapeMarkerIsConsumed : Obligations.EscapeMarkerIsConsumed := by
  unfold Obligations.EscapeMarkerIsConsumed
  refine ⟨fun ctx => ?_, exec_rxEsc⟩
  by_cases hm : ctx.escapedMode = true
  · rw [if_pos hm]
    exact decode_rxByte_escape hm
  · rw [if_neg hm]
    exact decode_rxByte_data (fun hb => absurd hb (by decide)) fun _ => Bool.eq_false_iff.2 hm

/-- Settles O31, by the equations of the two rows that a byte in Idle can select beside RX_START. -/
theorem idleSkipsData : Obligations.IdleSkipsData := by
  unfold Obligations.IdleSkipsData
  exact fun s hw => ⟨fun b => exec_rxData_of_waiting b hw, exec_rxEsc s⟩

/-- Settles O32: each length byte is appended with room and interpreted by its offset; the two together are the
big-endian length. -/
theorem lengthBytesAreBigEndian : Obligations.LengthBytesAreBigEndian := by
  unfold Obligations.LengthBytesAreBigEndian
  intro s b hw hroom
  refine ⟨fun hcnt => ?_, fun hcnt => ?_, fun h => be16_zero_add h _⟩
  · rw [exec_rxData_of_room b hw hroom, State.interpret_lengthHigh _ (congrArg (· + 1) hcnt),
      shiftLeft_eq_be16, hcnt]
    rfl
  · rw [exec_rxData_of_room b hw hroom, State.interpret_lengthLow _ (congrArg (· + 1) hcnt), hcnt]
    rfl

/-- Settles O33: a byte appended with room, below the end of the frame data, is summed. -/
theorem frameDataIsSummed : Obligations.FrameDataIsSummed := by
  unfold Obligations.FrameDataIsSummed
  intro s b hw hroom hcnt hlen
  exact (exec_rxData_of_room b hw hroom).trans
    (congrArg Host.Outcome.next (State.interpret_data _ (Nat.lt_succ_of_le hcnt) hlen))

/-- Settles O36: inside a frame RX_DATA appends, and the append finds the buffer full. -/
theorem fullBufferIsReported : Obligations.FullBufferIsReported := by
  unfold Obligations.FullBufferIsReported
  intro s b hw hfull
  exact (exec_rxData_of_scanning b hw).trans (congrArg Host.Outcome.next (State.append_of_full _ hfull))

end Sys2Proof.Machine
end

section
/-! The pending dispatches of the machine at any parameters, against the spec's own `Decode` and frame-level event
(spec/42_decoder.md R230 to R254, spec/43_reassembler.md R314). -/

namespace Sys2Proof.Machine

/-- One instruction of the machine at the parameters `P`. -/
def microFor (P : Parameters) (s : State) : Host.Outcome State Fault Refusal :=
  microWith (fun it => decode it P) (execFor P) s

/-- The pending dispatches of the machine at the parameters `P`, at most `n` of them. -/
def settleFor (P : Parameters) (n : Nat) (o : Host.Outcome State Fault Refusal) :
    Host.Outcome State Fault Refusal :=
  settleWith (fun it => decode it P) (execFor P) n o

variable {P : Parameters} {s : State}

theorem stepFor_eq_settleFor (P : Parameters) (s : State) :
    stepFor P s = settleFor P 2 (microFor P s) := rfl

theorem settleFor_of_idle (n : Nat) (h : s.phase = .idle) : settleFor P n (.next s) = .next s := by
  cases n with
  | zero => rfl
  | succ n => exact if_pos h

theorem settleFor_of_pending (n : Nat) (h : s.phase ≠ .idle) :
    settleFor P (n + 1) (.next s) = settleFor P n (microFor P s) :=
  if_neg h

/-! ## What one instruction is -/

/-- A received byte is taken from the current FEED. -/
theorem microFor_rxByte {b : Byte} {bs : List Byte} {i : Instr} (hphase : s.phase = .idle)
    (hrxq : s.rxq = b :: bs) (hi : decode (.rxByte s.rxContext b) = .ok i) :
    microFor P s = execFor P i { s with rxq := bs } := by
  cases hi
  simp only [microFor, microWith, State.fetch, State.consume, hphase, hrxq, decode]

/-- A completed frame is dispatched on its tag (R231). -/
theorem microFor_emitFrame {f p : List Byte} {tag : Byte} (hphase : s.phase = .emitFrame)
    (hf : s.frame = some f) (htag : taggedBytes f = tag :: p) :
    microFor P s = execFor P (decodeTagged s.cfg.rawFrames tag p P) { s with phase := .idle } := by
  simp only [microFor, microWith, State.fetch, State.consume, hphase, hf, htag, decode]

/-- An AT response goes on at its branch (R251, R253). -/
theorem microFor_atBranch {remote : Bool} {m : Message} {c : Cursor}
    (hphase : s.phase = .atBranch remote m c) :
    microFor P s = execFor P (decodeBranch remote m c) { s with phase := .idle } := by
  simp only [microFor, microWith, State.fetch, State.consume, hphase, decode]

/-! ## The AT branches -/

/-- The AT branch as the spec writes it, local or remote, with the decoder's conditions (R252, R254). -/
theorem refEnd_atBranch (V : Values) (cfg : ConfigRegs) (remote : Bool) (m : Message) (c : Cursor) :
    refEnd V cfg (.atBranch remote m) c =
      if isNd m c then branchNd V m c
      else if isRemoteIs remote m then readIoSamplePayload V cfg m m.commandStatus c
      else branchOther m c := by
  have hnd : (m.command = some Ascii2.nd ∧ m.commandStatus = some 0x00 ∧ 0 < c.rest.length) ↔
      isNd m c = true := by
    rw [decide_eq_true_eq, List.length_pos_iff]
    rfl
  cases remote with
  | false =>
    rw [refEnd, refAtBranchLocal, Parse.bind_ok (remaining_eq c.pos c.rest)]
    simp only [hnd, isRemoteIs, Bool.false_eq_true, false_and, decide_false, if_false]
    split <;> rfl
  | true =>
    rw [refEnd, refAtBranchRemote, Parse.bind_ok (remaining_eq c.pos c.rest)]
    simp only [hnd, isRemoteIs, decide_eq_true_eq, true_and]
    split
    · rfl
    · split <;> rfl

/-- The event of a parser's end on the frame `f` (R314). -/
def parseEvent (f : List Byte) : Except ParseFail Message → Event
  | .ok m => .frameObject m
  | .error e => .decodeError e f

/-- Inside RXBUF a parser's end is its event, and that of every parser which agrees with it at the cursor. -/
theorem State.parseFrame_eq_emit {x y : Parse Message} {c : Cursor} {f : List Byte} (hf : s.frame = some f)
    (hy : y c = x c) : s.parseFrame x c = .next (s.emit (parseEvent f (y.runOn c))) := by
  have hrun : y.runOn c = x.runOn c := by rw [Parse.runOn, Parse.runOn, hy]
  rw [hrun]
  cases h : x.runOn c with
  | ok m => exact s.parseFrame_ok h
  | error e => exact State.parseFrame_error h hf

/-- The three AT rows together are the spec's AT branch: each row puts the fields it takes apart back. -/
theorem execFor_decodeBranch {remote : Bool} {m : Message} {c : Cursor} {f : List Byte}
    (hf : s.frame = some f) :
    execFor P (decodeBranch remote m c) s =
      .next (s.emit (parseEvent f ((refEnd P.toValues s.cfg (.atBranch remote m)).runOn c))) := by
  have hend := refEnd_atBranch P.toValues s.cfg remote m c
  rw [decodeBranch]
  split
  case isTrue hnd => exact State.parseFrame_eq_emit hf (hend.trans (if_pos hnd))
  case isFalse hnd =>
    replace hend := hend.trans (if_neg hnd)
    split
    case isTrue his => exact State.parseFrame_eq_emit hf (hend.trans (if_pos his))
    case isFalse his =>
      exact State.parseFrame_eq_emit (x := branchOther m) hf (hend.trans (if_neg his))

/-! ## The dispatch of a frame -/

theorem State.reportRaw_eq_emit {f : List Byte} (hf : s.frame = some f) :
    s.reportRaw = .next (s.emit (.frameRaw f)) := by
  rw [State.reportRaw, hf]

/-- With RAW_FRAMES = 1 every tag is reported raw. -/
theorem execFor_decodeTagged_raw (tag : Byte) (p : List Byte) (h : s.cfg.rawFrames = true) :
    execFor P (decodeTagged true tag p P) s = s.reportRaw :=
  if_pos h

/-- A tag with no parser is reported raw. -/
theorem execFor_decodeTagged_none {tag : Byte} (p : List Byte) (hraw : s.cfg.rawFrames = false)
    (hty : P.parserType tag = none) :
    execFor P (decodeTagged false tag p P) s = s.reportRaw := by
  have hless : P.rowlessParser tag = none := by rw [Parameters.rowlessParser, hty]
  simp only [decodeTagged, hty, Bool.false_eq_true, if_false, execFor, execDecUnregistered, hraw, hless]

/-- A row of a named type runs the type's parser from the frame's own tag. -/
theorem State.parseRow_eq_parseWith {tag : Byte} {ty : FrameType} {x : Parser} (p : List Byte)
    (hty : P.parserType tag = some ty) (hx : P.decReg ty = some x) (hnamed : ty ≠ .unnamed tag) :
    s.parseRow P ty p = s.parseWith P x tag p := by
  obtain ⟨-, ⟨-, htag⟩ | hunnamed⟩ := Parameters.typeOf_some hty
  · rw [State.parseRow, hx, ← htag]
  · exact absurd hunnamed hnamed

/-- DEC_UNREGISTERED runs a parser of the registry that has no row (log 26). -/
theorem execFor_decUnregistered_rowless {tag : Byte} {ty : FrameType} {x : Parser} (p : List Byte)
    (hraw : s.cfg.rawFrames = false) (hty : P.parserType tag = some ty) (hx : P.decReg ty = some x)
    (hrow : decRows.contains ty = false) :
    execFor P (.decUnregistered tag p) s = s.parseWith P x tag p := by
  have hless : P.rowlessParser tag = some x := by
    simp only [Parameters.rowlessParser, hty, hrow, hx, Bool.false_eq_true, if_false]
  simp only [execFor, execDecUnregistered, hraw, hless, Bool.false_eq_true, if_false]

/-- A tag with a parser runs it, in a row of its own or in DEC_UNREGISTERED. -/
theorem execFor_decodeTagged_some {tag : Byte} {ty : FrameType} {x : Parser} (p : List Byte)
    (hraw : s.cfg.rawFrames = false) (hty : P.parserType tag = some ty) (hx : P.decReg ty = some x) :
    execFor P (decodeTagged false tag p P) s = s.parseWith P x tag p := by
  simp only [decodeTagged, hty, Bool.false_eq_true, if_false]
  cases ty
  case createSourceRoute | unnamed => exact execFor_decUnregistered_rowless p hraw hty hx rfl
  all_goals exact State.parseRow_eq_parseWith p hty hx nofun

/-- A parser and the AT branch it may leave pending are one event: that of the parser with the spec's rest. -/
theorem settleFor_parseWith {x : Parser} {tag : Byte} {p f : List Byte} (hidle : s.phase = .idle)
    (hf : s.frame = some f) :
    settleFor P 1 (s.parseWith P x tag p) =
      .next (s.emit (parseEvent f
        (Parse.runOn (x P.toValues s.cfg { type := tag } >>= refEnd P.toValues s.cfg) ⟨0, p⟩))) := by
  cases h : x P.toValues s.cfg { type := tag } ⟨0, p⟩ with
  | error e =>
    rw [Parse.runOn_error (Parse.bind_error h)]
    simp only [State.parseWith, h, State.decodeFailed, hf]
    exact settleFor_of_idle 1 hidle
  | ok r =>
    obtain ⟨parsed, c⟩ := r
    have hrun : Parse.runOn (x P.toValues s.cfg { type := tag } >>= refEnd P.toValues s.cfg) ⟨0, p⟩ =
        (refEnd P.toValues s.cfg parsed).runOn c := by
      rw [Parse.runOn, Parse.bind_ok h, Parse.runOn]
    rw [hrun]
    cases parsed with
    | message m =>
      simp only [State.parseWith, h]
      exact settleFor_of_idle 1 hidle
    | atBranch remote m =>
      simp only [State.parseWith, h]
      rw [settleFor_of_pending 0 Phase.noConfusion, microFor_atBranch rfl]
      have hs : { s with phase := .idle } = s := by rw [← hidle]
      exact hs.symm ▸ execFor_decodeBranch hf

end Sys2Proof.Machine
end

section
/-! The step of a received byte is RxStep (spec/43_reassembler.md R301). -/

namespace Sys2Proof.Machine

variable {P : Parameters} {s : State}

/-! ## EmitFrame (R314) -/

theorem refFrameEvent_raw {c : ConfigRegs} (f : List Byte) (h : c.rawFrames = true) :
    refFrameEvent c f P = .frameRaw f :=
  if_pos h

/-- Without a parser for its tag a frame is reported raw. -/
theorem refFrameEvent_no_parser {c : ConfigRegs} {f : List Byte} (hraw : c.rawFrames = false)
    (hty : P.parserType (f.getD 3 0) = none) : refFrameEvent c f P = .frameRaw f := by
  simp only [refFrameEvent, hraw, refDecode, hty, Bool.false_eq_true, if_false, Option.bind_none,
    Option.map_none]

/-- With a parser for its tag a frame is reported as that parser ends. -/
theorem refFrameEvent_parser {c : ConfigRegs} {f : List Byte} {ty : FrameType} {x : Parser}
    (hraw : c.rawFrames = false) (hty : P.parserType (f.getD 3 0) = some ty) (hx : P.decReg ty = some x) :
    refFrameEvent c f P = parseEvent f
      (Parse.runOn (x P.toValues c { type := f.getD 3 0 } >>= refEnd P.toValues c)
        ⟨0, (f.drop 4).dropLast⟩) := by
  simp only [refFrameEvent, hraw, refDecode, hty, Bool.false_eq_true, if_false, Option.bind_some, hx,
    Option.map_some]
  cases Parse.runOn (x P.toValues c { type := f.getD 3 0 } >>= refEnd P.toValues c)
    ⟨0, (f.drop 4).dropLast⟩ <;> rfl

/-- A frame of five bytes or more has a tag, and its payload is what follows the tag up to the checksum. -/
theorem taggedBytes_eq_cons {f : List Byte} (h : 5 ≤ f.length) :
    taggedBytes f = f.getD 3 0 :: (f.drop 4).dropLast := by
  match f, h with
  | _ :: _ :: _ :: _ :: _ :: _, _ => rfl

/-- The row of a frame's tag, with the AT branch it may leave pending, is the frame's one event. -/
theorem settleFor_decodeTagged {f : List Byte} (hidle : s.phase = .idle) (hf : s.frame = some f) :
    settleFor P 1 (execFor P (decodeTagged s.cfg.rawFrames (f.getD 3 0) (f.drop 4).dropLast P) s) =
      .next (s.emit (refFrameEvent s.cfg f P)) := by
  have hreported : settleFor P 1 s.reportRaw = .next (s.emit (.frameRaw f)) := by
    rw [State.reportRaw_eq_emit hf]
    exact settleFor_of_idle 1 hidle
  cases hraw : s.cfg.rawFrames with
  | true => rw [execFor_decodeTagged_raw _ _ hraw, refFrameEvent_raw f hraw, hreported]
  | false =>
    cases hty : P.parserType (f.getD 3 0) with
    | none => rw [execFor_decodeTagged_none _ hraw hty, refFrameEvent_no_parser hraw hty, hreported]
    | some ty =>
      obtain ⟨x, hx⟩ := Option.isSome_iff_exists.1 (Parameters.typeOf_some hty).1
      rw [execFor_decodeTagged_some _ hraw hty hx, refFrameEvent_parser hraw hty hx]
      exact settleFor_parseWith hidle hf

/-- The dispatches of a completed frame are its one frame-level event. -/
theorem settleFor_emitFrame {f : List Byte} (hphase : s.phase = .emitFrame) (hf : s.frame = some f)
    (hlen : 5 ≤ f.length) :
    settleFor P 2 (.next s) =
      .next (State.emit { s with phase := .idle } (refFrameEvent s.cfg f P)) := by
  have hpending : s.phase ≠ .idle := by rw [hphase]; exact Phase.noConfusion
  rw [settleFor_of_pending 1 hpending, microFor_emitFrame hphase hf (taggedBytes_eq_cons hlen)]
  exact settleFor_decodeTagged (s := { s with phase := .idle }) rfl hf

/-! ## Sub-steps (5) and (6) (R306 to R316) -/

/-- The byte just written is the checksum of a frame (R313). -/
abbrev State.AtChecksum (s : State) : Prop := 0 < s.len.toNat ∧ s.cnt = s.len.toNat + 4

theorem State.interpret_of_checksum (v : Byte) (h : s.AtChecksum) : s.interpret v = s.complete v := by
  have hlen : s.cnt = s.len.toNat + 4 := h.2
  rw [State.interpret, if_neg (by omega), if_neg (by omega), if_neg (by omega), if_neg (by omega), if_pos h]

/-- Only a completion leaves a dispatch pending. -/
theorem State.interpret_phase (v : Byte) (h : ¬s.AtChecksum) : (s.interpret v).phase = s.phase := by
  simp only [State.interpret, if_neg h]
  split_ifs <;> rfl

/-- Away from a completion the spec's interpretation of a byte is the model's. -/
theorem refInterpret_eq_interpret (v : Byte) (h : ¬s.AtChecksum) : refInterpret v s P = s.interpret v := by
  simp only [refInterpret, State.interpret, if_neg h]

/-- The spec's completion is the model's with the frame's event after the mismatch (R313 to R315). -/
theorem refInterpret_of_checksum (v : Byte) (h : s.AtChecksum) :
    refInterpret v s P = State.emit { s.complete v with phase := s.phase }
      (refFrameEvent s.cfg (s.rxbuf.readBytes 0 s.cnt) P) := by
  have hlen : s.cnt = s.len.toNat + 4 := h.2
  rw [refInterpret, if_neg (by omega), if_neg (by omega), if_neg (by omega), if_neg (by omega)]
  simp only [if_pos h]
  rw [State.complete_eq]
  by_cases hv : v = 0xFF - s.sum
  · simp only [ne_eq, hv, not_true, if_false, if_true, List.append_nil]
    rfl
  · simp only [ne_eq, hv, not_false_eq_true, if_false, if_true]
    rfl

/-- A byte written inside RXBUF is interpreted as the spec does, its frame emitted. -/
theorem settleFor_interpret (v : Byte) (hidle : s.phase = .idle) (hcnt : s.cnt ≤ s.cfg.rxCap.toNat) :
    settleFor P 2 (.next (s.interpret v)) = .next (refInterpret v s P) := by
  by_cases h : s.AtChecksum
  · have hframe : (s.complete v).frame = some (s.rxbuf.readBytes 0 s.cnt) := by
      rw [State.complete_eq]
      exact if_pos hcnt
    have hlen : 5 ≤ (s.rxbuf.readBytes 0 s.cnt).length := by
      obtain ⟨hpos, hend⟩ := h
      rw [Memory.readBytes_length]
      omega
    rw [State.interpret_of_checksum v h, refInterpret_of_checksum v h, hidle,
      settleFor_emitFrame rfl hframe hlen, State.complete_eq]
  · rw [refInterpret_eq_interpret v h]
    exact settleFor_of_idle 2 ((State.interpret_phase v h).trans hidle)

/-- An append is the spec's, whether the buffer is full or not. -/
theorem settleFor_append (v : Byte) (hidle : s.phase = .idle) :
    settleFor P 2 (.next (s.append v)) = .next (refAppend v s P) := by
  by_cases hroom : s.cnt < s.cfg.rxCap.toNat
  · rw [State.append_of_room v hroom, refAppend, if_pos hroom]
    exact settleFor_interpret v hidle hroom
  · rw [State.append_of_full v (Nat.not_lt.1 hroom), refAppend, if_neg hroom]
    exact settleFor_of_idle 2 hidle

/-! ## RxStep by class of byte (R121, R301) -/

/-- Sub-step (1) detects a start (R303). -/
def State.StartsAt (s : State) (b : Byte) : Prop :=
  b = 0x7E ∧ (s.waiting = true ∨ (s.cfg.apiMode = 2 ∧ s.escPend = false))

theorem State.rxContext_escapedMode_iff (s : State) : s.rxContext.escapedMode = true ↔ s.cfg.apiMode = 2 :=
  beq_iff_eq

theorem refRxStep_of_start (h : s.StartsAt 0x7E) :
    refRxStep 0x7E s P = refAppend 0x7E { s.startFrame with last := 0x7E } P := by
  have hstart : refStart 0x7E s = s.startFrame := if_pos h
  have hescape : ¬(s.cfg.apiMode = 2 ∧ (0x7E : Byte) = 0x7D) := fun he => absurd he.2 (by decide)
  simp only [refRxStep, hstart, State.startFrame_cfg, if_neg hescape]
  rfl

theorem refRxStep_of_escape (h : s.cfg.apiMode = 2) :
    refRxStep 0x7D s P = { s with last := 0x7D, escPend := true } := by
  have hstart : refStart 0x7D s = s := if_neg fun hs => absurd hs.1 (by decide)
  simp only [refRxStep, hstart, h, and_self, if_true]

theorem refRxStep_of_data {b : Byte} (hstart : ¬s.StartsAt b) (hescape : ¬(s.cfg.apiMode = 2 ∧ b = 0x7D)) :
    refRxStep b s P =
      let t : State := { s with last := s.unescaped b, escPend := false }
      if s.waiting then t else refAppend (s.unescaped b) t P := by
  have hskip : refStart b s = s := if_neg hstart
  simp only [refRxStep, hskip, if_neg hescape, refDeliver, State.unescaped]
  cases hp : s.escPend with
  | true => rfl
  | false => rfl

/-- A received byte's row with the dispatches it leads to is RxStep, class by class. -/
theorem decode_rxByte_settles_refRxStep (P : Parameters) (b : Byte) (hidle : s.phase = .idle) :
    ∃ i, decode (.rxByte s.rxContext b) = .ok i ∧
      settleFor P 2 (execFor P i s) = .next (refRxStep b s P) := by
  have hmode := s.rxContext_escapedMode_iff
  by_cases hstart : s.StartsAt b
  · obtain ⟨rfl, hwhen⟩ := id hstart
    refine ⟨.rxStart, decode_rxByte_start (hwhen.imp_right fun h => ⟨hmode.2 h.1, h.2⟩), ?_⟩
    rw [refRxStep_of_start hstart]
    exact settleFor_append 0x7E hidle
  by_cases hescape : s.cfg.apiMode = 2 ∧ b = 0x7D
  · obtain ⟨hm, rfl⟩ := hescape
    refine ⟨.rxEsc, decode_rxByte_escape (hmode.2 hm), ?_⟩
    rw [refRxStep_of_escape hm]
    exact settleFor_of_idle 2 hidle
  · refine ⟨.rxData b, decode_rxByte_data (fun hb hwhen => ?_) fun hb => ?_, ?_⟩
    · exact hstart ⟨hb, hwhen.imp_right fun h => ⟨hmode.1 h.1, h.2⟩⟩
    · exact Bool.eq_false_iff.2 fun hm => hescape ⟨hmode.1 hm, hb⟩
    · rw [refRxStep_of_data hstart hescape]
      cases hw : s.waiting with
      | true =>
        simp only [execFor, execRxData, hw, if_true]
        exact settleFor_of_idle 2 hidle
      | false =>
        simp only [execFor, execRxData, hw, Bool.false_eq_true, if_false]
        exact settleFor_append _ hidle

/-- The step of a received byte at any parameters. -/
theorem stepFor_eq_refRxStep (P : Parameters) {b : Byte} {bs : List Byte} (hidle : s.phase = .idle)
    (hrxq : s.rxq = b :: bs) : stepFor P s = .next (refRxStep b { s with rxq := bs } P) := by
  obtain ⟨i, hi, hsettles⟩ := decode_rxByte_settles_refRxStep (s := { s with rxq := bs }) P b hidle
  rw [stepFor_eq_settleFor, microFor_rxByte hidle hrxq hi, hsettles]

end Sys2Proof.Machine
end

section
/-! R301: the step of a received byte against the spec's RxStep. -/

namespace Sys2Proof.Machine

/-- Settles O38: the machine the host runs is one case of the step at any parameters. -/
theorem receivedByteStepIsRxStep : Obligations.ReceivedByteStepIsRxStep := by
  unfold Obligations.ReceivedByteStepIsRxStep
  intro s b bs hidle hrxq
  have hstep := fun P => stepFor_eq_refRxStep P hidle hrxq
  exact ⟨(step_eq_stepFor s).trans (hstep Params.default), hstep⟩

end Sys2Proof.Machine
end

section
/-! The decoder, format by format, and the encoder it reads back (spec/30_encoding.md R121, R122, R127, R128). -/

namespace Sys2Proof.Machine

/-! ## The command port (R128, R351) -/

/-- Every code but the four named ones is read as ILLEGAL_COMMAND. -/
theorem decodeCommand_of_unknown {c : Command} (h1 : c.code ≠ 0x01) (h2 : c.code ≠ 0x02)
    (h3 : c.code ≠ 0x03) (h4 : c.code ≠ 0x04) : decodeCommand c = .illegalCommand c.code := by
  rw [decodeCommand]
  split
  · exact absurd ‹_› h1
  · exact absurd ‹_› h2
  · exact absurd ‹_› h3
  · exact absurd ‹_› h4
  · rfl

theorem decodeCommand_feed {c : Command} (h : c.code = 0x01) : decodeCommand c = .feed c.chunk := by
  cases c
  cases h
  rfl

theorem decodeCommand_encode {c : Command} (h : c.code = 0x02) : decodeCommand c = .encode c.message := by
  cases c
  cases h
  rfl

/-! ## Registered tags (R122) -/

/-- A well-formed DEC row is the one its tag selects. -/
theorem parserType_of_selectsParser {P : Parameters} {ty : FrameType} {p : List Byte}
    (h : selectsParser P ty p = true) : P.parserType (P.tag ty) = some ty :=
  of_decide_eq_true (Bool.and_eq_true_iff.1 h).1

/-- A well-formed ENC row is the one its message's tag selects. -/
theorem serializerType_of_selectsSerializer {P : Parameters} {ty : FrameType} {m : Message}
    (h : selectsSerializer P ty m = true) : P.serializerType m.type = some ty :=
  of_decide_eq_true (Bool.and_eq_true_iff.1 h).1

/-- The tags of the default parser registry. -/
theorem default_parserType_eq_none_iff (tag : Byte) :
    Params.default.parserType tag = none ↔
      tag ∉ ([0x00, 0x01, 0x08, 0x09, 0x10, 0x11, 0x17, 0x80, 0x81, 0x82, 0x83, 0x88,
        0x89, 0x8A, 0x8B, 0x90, 0x91, 0x92, 0x94, 0x95, 0x97, 0xA1] : List Byte) := by
  revert tag; decide

/-- Every parser of the default registry has a row of its own. -/
theorem default_decodeTagged_eq_unregistered_iff (tag : Byte) (p : List Byte) :
    decodeTagged false tag p = .decUnregistered tag p ↔ Params.default.parserType tag = none := by
  cases hty : Params.default.parserType tag with
  | none => simp [decodeTagged, hty]
  | some ty =>
    have hreg : (Params.default.decReg ty).isSome = true := (Parameters.typeOf_some hty).1
    cases ty
    case createSourceRoute | unnamed => exact absurd hreg Bool.false_ne_true
    all_goals simp [decodeTagged, hty]

/-! ## The AT branches (R127, R252, R254) -/

theorem decodeBranch_of_isNd {remote : Bool} {m : Message} {c : Cursor} (h : isNd m c = true) :
    decodeBranch remote m c = .atNd ⟨remote, m⟩ c :=
  if_pos h

/-- The mnemonic `IS` is not `ND`. -/
theorem isNd_eq_false_of_isRemoteIs {remote : Bool} {m : Message} {c : Cursor}
    (h : isRemoteIs remote m = true) : isNd m c = false := by
  have his : m.command = some Ascii2.is := (of_decide_eq_true h).2
  refine decide_eq_false fun hnd => ?_
  rw [his] at hnd
  exact absurd hnd.1 (by decide)

theorem decodeBranch_of_isRemoteIs {remote : Bool} {m : Message} {c : Cursor}
    (h : isRemoteIs remote m = true) :
    decodeBranch remote m c =
      .atIsRemote ⟨remote, { m with commandStatus := none }⟩ m.commandStatus c := by
  simp only [decodeBranch, isNd_eq_false_of_isRemoteIs h, h, Bool.false_eq_true, if_false, if_true]

theorem decodeBranch_of_other {remote : Bool} {m : Message} {c : Cursor} (hnd : isNd m c = false)
    (his : isRemoteIs remote m = false) :
    decodeBranch remote m c =
      .atOther ⟨remote, { m with command := none, commandStatus := none }⟩ m.command m.commandStatus c := by
  simp only [decodeBranch, hnd, his, Bool.false_eq_true, if_false]

variable {m : Message} {c0 c1 : Byte}

/-- The condition of the `ND` branch on a mnemonic and a status given as bytes. -/
theorem isNd_iff_bytes {st : Byte} (c : Cursor) (hc : m.command = some ⟨c0, c1⟩)
    (hs : m.commandStatus = some st) :
    isNd m c = true ↔ c0 = 0x4E ∧ c1 = 0x44 ∧ st = 0x00 ∧ c.rest ≠ [] := by
  rw [isNd, hc, hs, decide_eq_true_eq]
  simp only [Ascii2.nd, successStatus, Option.some.injEq, Ascii2.mk.injEq, and_assoc]

/-- The condition of the `IS` branch on a mnemonic given as bytes. -/
theorem isRemoteIs_iff_bytes (remote : Bool) (hc : m.command = some ⟨c0, c1⟩) :
    isRemoteIs remote m = true ↔ remote = true ∧ c0 = 0x49 ∧ c1 = 0x53 := by
  rw [isRemoteIs, hc, decide_eq_true_eq]
  simp only [Ascii2.is, Option.some.injEq, Ascii2.mk.injEq]

/-! ## The encoder -/

/-- No bit of an encoding is dropped: each format's decoder reads its row back, and what a row takes out of its
message was absent from the rest of it. -/
theorem decode_encode (P : Parameters) (i : Instr) (h : i.wellFormed P = true) :
    decode (encode i P) P = .ok i := by
  cases i
  case feed | encode | nextFrameId | reset | rxStart | rxEsc | decUnregistered => rfl
  case rxData b => exact decode_rxByte_data (fun _ => by simp) fun _ => rfl
  case illegalCommand code =>
    obtain ⟨h1, h2, h3, h4⟩ := of_decide_eq_true h
    exact congrArg Except.ok (decodeCommand_of_unknown (c := { code }) h1 h2 h3 h4)
  case atNd head rest =>
    exact congrArg Except.ok (decodeBranch_of_isNd (Bool.and_eq_true_iff.1 h).2)
  case atIsRemote head status rest =>
    simp only [Instr.wellFormed, Bool.and_eq_true] at h
    obtain ⟨⟨-, his⟩, habsent⟩ := h
    refine congrArg Except.ok ((decodeBranch_of_isRemoteIs his).trans ?_)
    simp only [← of_decide_eq_true habsent]
  case atOther head command status rest =>
    simp only [Instr.wellFormed, Bool.and_eq_true, Bool.not_eq_true'] at h
    obtain ⟨⟨⟨-, hnd⟩, his⟩, habsent⟩ := h
    obtain ⟨remote, m⟩ := head
    obtain ⟨hcommand, hstatus⟩ := of_decide_eq_true habsent
    refine congrArg Except.ok ((decodeBranch_of_other hnd his).trans ?_)
    cases m; cases hcommand; cases hstatus; rfl
  case encAtCommand | encAtCommandQueueParameterValue | encRemoteAtCommandRequest
    | encZigbeeTransmitRequest | encExplicitAddressingZigbeeCommandFrame | encTxRequest64 | encTxRequest16
    | encCreateSourceRoute =>
    rename_i rest
    obtain ⟨hselects, habsent⟩ := Bool.and_eq_true_iff.1 h
    replace habsent := of_decide_eq_true habsent
    simp only [decode, encode, decodeMessage, serializerType_of_selectsSerializer hselects]
    cases rest
    simp_all only
  all_goals
    simp only [decode, encode, taggedItem, decodeTagged, parserType_of_selectsParser h, Bool.false_eq_true,
      if_false]

/-- Settles O1: the default parameters are one case of the round trip at any parameters. -/
theorem decodeOfEncodeIsIdentity : Obligations.DecodeOfEncodeIsIdentity := by
  unfold Obligations.DecodeOfEncodeIsIdentity
  exact ⟨decode_encode Params.default, decode_encode⟩

/-- Settles O2, by evaluation: each word is a closed term. -/
theorem writtenOutWordsDecode : Obligations.WrittenOutWordsDecode := by
  unfold Obligations.WrittenOutWordsDecode
  exact ⟨rfl, rfl, rfl, rfl, rfl, _, _, fun _ => rfl, rfl⟩

/-- Settles O5: without RAW_FRAMES a tag has no row exactly when the registry has no parser for it. -/
theorem tagWithoutParserIsUnregistered : Obligations.TagWithoutParserIsUnregistered := by
  unfold Obligations.TagWithoutParserIsUnregistered
  intro raw tag p
  cases raw with
  | true => exact iff_of_true rfl (.inl rfl)
  | false =>
    rw [decode, Except.ok.injEq, default_decodeTagged_eq_unregistered_iff, default_parserType_eq_none_iff]
    simp only [Bool.false_eq_true, false_or]

/-- Settles O6: the two conditions, read on bytes, choose among the three equations of the AT branch. -/
theorem mnemonicSelectsAtBranch : Obligations.MnemonicSelectsAtBranch := by
  unfold Obligations.MnemonicSelectsAtBranch
  intro m pos c0 c1 st rest hc hs c nd isIs other
  have hnd : isNd m c = true ↔ nd := isNd_iff_bytes c hc hs
  have his : ∀ remote, isRemoteIs remote m = true ↔ remote = true ∧ isIs := fun _ => isRemoteIs_iff_bytes _ hc
  have hother : ¬nd → ∀ remote, isRemoteIs remote m = false →
      decode (.atBranch remote m c) = .ok (other remote) := by
    intro hn remote hr
    rw [decode, decodeBranch_of_other (Bool.eq_false_iff.2 (hn ∘ hnd.1)) hr, hc, hs]
  refine ⟨fun h remote => ?_, fun h => ?_, fun h => hother h false rfl, fun h hi => ?_⟩
  · rw [decode, decodeBranch_of_isNd (hnd.2 h)]
  · rw [decode, decodeBranch_of_isRemoteIs ((his true).2 ⟨rfl, h⟩), hs]
  · exact hother h true (Bool.eq_false_iff.2 fun hr => hi ((his true).1 hr).2)

end Sys2Proof.Machine
end

section
/-! What an instruction leaves unchanged: every instruction but RESET, the serializers, the received-byte rows
(spec/10_state.md R43, R45, spec/44_host_interface.md R355, R357, spec/20_memory.md R81). -/

namespace Sys2Proof.Machine

/-- What every instruction but RESET keeps: the configuration (R45), FID but for one advance (R182), and the
two output ports, which are only appended to (R357). -/
structure State.RunsTo (s t : State) : Prop where
  cfg : t.cfg = s.cfg
  fid : t.fid = s.fid ∨ t.fid = nextFid s.fid
  events : s.events <+: t.events
  results : s.results <+: t.results

/-- What the encoder keeps as well: the reassembler (R355), the input ports, the phase, and the canonical form of
TXBUF. -/
structure State.EncodesTo (s t : State) : Prop extends s.RunsTo t where
  scanner : SameScanner s t
  rxq : t.rxq = s.rxq
  cmdq : t.cmdq = s.cmdq
  phase : t.phase = s.phase
  memory : s.txbuf.wf → t.txbuf.wf

/-- What a received byte keeps as well: the encoder (R306), the input ports, and the canonical form of RXBUF. -/
structure State.ReceivesTo (s t : State) : Prop extends s.RunsTo t where
  encoder : SameEncoder s t
  rxq : t.rxq = s.rxq
  cmdq : t.cmdq = s.cmdq
  memory : s.rxbuf.wf → t.rxbuf.wf

theorem SameScanner.refl (s : State) : SameScanner s s := ⟨rfl, rfl, rfl, rfl, rfl, rfl, rfl, rfl⟩

theorem State.RunsTo.refl (s : State) : s.RunsTo s :=
  ⟨rfl, .inl rfl, List.prefix_refl _, List.prefix_refl _⟩

theorem State.RunsTo.emit (s : State) (e : Event) : s.RunsTo (s.emit e) :=
  ⟨rfl, .inl rfl, List.prefix_append _ _, List.prefix_refl _⟩

/-! ## The encoder -/

theorem State.EncodesTo.refl (s : State) : s.EncodesTo s :=
  { State.RunsTo.refl s with scanner := .refl s, rxq := rfl, cmdq := rfl, phase := rfl, memory := id }

theorem State.EncodesTo.emit (s : State) (e : Event) : s.EncodesTo (s.emit e) :=
  { State.RunsTo.emit s e with scanner := .refl s, rxq := rfl, cmdq := rfl, phase := rfl, memory := id }

/-- A transmission, after at most one advance of the counter, touches FID, TXBUF and the output ports only. -/
theorem State.transmit_encodesTo {s u : State} (hu : u = s ∨ u = s.advanceFid) (d : List Byte)
    (P : Parameters) : s.EncodesTo (u.transmit d P) := by
  have hadvance : s.EncodesTo u := by
    obtain rfl | rfl := hu
    · exact .refl u
    · exact { State.RunsTo.refl s with
        fid := .inr rfl, scanner := .refl s, rxq := rfl, cmdq := rfl, phase := rfl, memory := id }
  obtain ⟨-, e⟩ | ⟨-, e⟩ | ⟨-, e⟩ := u.transmit_cases d P <;> rw [e]
  · exact { hadvance with events := hadvance.events.trans (List.prefix_append _ _) }
  · exact { hadvance with events := hadvance.events.trans (List.prefix_append _ _) }
  · exact { hadvance with
      results := hadvance.results.trans (List.prefix_append _ _)
      memory := fun h => Memory.wf_writeBytes _ _ (Memory.wf_writeBytes _ _
        (Memory.wf_writeBytes _ _ (hadvance.memory h))) }

/-- Every serializer answers a next state and keeps what the encoder keeps. -/
theorem State.serialize_encodesTo (s : State) (P : Parameters) (ty : FrameType) (m : Message) :
    ∃ t, s.serialize P ty m = .next t ∧ s.EncodesTo t := by
  obtain ⟨-, -, -, e⟩ | ⟨x, e⟩ | ⟨u, d, hu, e⟩ := s.serialize_cases P ty m
  · exact ⟨s, e, .refl s⟩
  · exact ⟨_, e, .emit s x⟩
  · exact ⟨_, e, State.transmit_encodesTo hu d P⟩

theorem execFor_encodesTo {P : Parameters} {i : Instr} {s t : State} (hi : i.format = .frameTagEncode)
    (h : execFor P i s = .next t) : s.EncodesTo t := by
  obtain rfl | ⟨e, rfl⟩ | ⟨u, d, hu, rfl⟩ := execFor_encode_next hi h
  · exact .refl t
  · exact .emit s e
  · exact State.transmit_encodesTo hu d P

/-- ENCODE leaves its dispatch pending, or does what a serializer does. -/
theorem execEncode_encodesTo {P : Parameters} {m : Message} {s t : State} (h : execEncode m s P = .next t) :
    t = { s with phase := .serialize m } ∨ s.EncodesTo t := by
  obtain h | rfl | ⟨e, rfl⟩ | ⟨u, d, hu, rfl⟩ := execEncode_next h
  · exact .inl h
  · exact .inr (.refl t)
  · exact .inr (.emit s e)
  · exact .inr (State.transmit_encodesTo hu d P)

/-! ## The received-byte rows -/

theorem State.ReceivesTo.refl (s : State) : s.ReceivesTo s :=
  { State.RunsTo.refl s with encoder := ⟨rfl, rfl, rfl⟩, rxq := rfl, cmdq := rfl, memory := id }

/-- Interpreting a byte touches the reassembler's registers, and may append a mismatch. -/
theorem State.interpret_receivesTo (s : State) (v : Byte) : s.ReceivesTo (s.interpret v) := by
  rw [State.interpret]
  split_ifs
  · exact .refl s
  · exact { State.ReceivesTo.refl s with }
  · exact { State.ReceivesTo.refl s with }
  · exact { State.ReceivesTo.refl s with }
  · rw [State.complete_eq]
    exact { State.ReceivesTo.refl s with events := List.prefix_append _ _ }
  · exact { State.ReceivesTo.refl s with }

/-- An append touches the reassembler, and may append an event. -/
theorem State.append_receivesTo (s : State) (v : Byte) : s.ReceivesTo (s.append v) := by
  rw [State.append]
  split
  · exact { State.interpret_receivesTo { s with rxbuf := s.rxbuf.write s.cnt v, cnt := s.cnt + 1 } v with
      memory := fun h => (State.interpret_receivesTo _ v).memory (Memory.wf_write _ _ h) }
  · exact { State.ReceivesTo.refl s with events := List.prefix_append _ _ }

theorem execFor_receivesTo {P : Parameters} {i : Instr} {s t : State} (hi : i.format = .rxByte)
    (h : execFor P i s = .next t) : s.ReceivesTo t := by
  cases i <;> cases hi
  case rxStart =>
    cases h
    exact { State.append_receivesTo { s.startFrame with last := Config.startMarker } _ with }
  case rxEsc =>
    cases h
    exact { State.ReceivesTo.refl s with }
  case rxData b =>
    simp only [execFor, execRxData] at h
    split at h <;> cases h
    · exact { State.ReceivesTo.refl s with }
    · exact { State.append_receivesTo { s with last := s.unescaped b, escPend := false } _ with }

/-! ## Every instruction but RESET -/

/-- A decode row or an AT branch appends one event, or leaves its branch pending. -/
theorem execFor_decode_runsTo {P : Parameters} {i : Instr} {s t : State}
    (hi : i.format = .frameTagDecode ∨ i.format = .atMnemonic) (h : execFor P i s = .next t) :
    s.RunsTo t := by
  obtain ⟨m, rfl⟩ | ⟨e, f, -, rfl⟩ | ⟨f, -, rfl⟩ | ⟨remote, m, c, rfl⟩ := execFor_decode_next hi h
  · exact .emit s _
  · exact .emit s _
  · exact .emit s _
  · exact { State.RunsTo.refl s with }

theorem execFor_runsTo {P : Parameters} {i : Instr} {s t : State} (hi : ∀ c, i ≠ .reset c)
    (h : execFor P i s = .next t) : s.RunsTo t := by
  cases i
  case reset c => exact absurd rfl (hi c)
  case feed =>
    cases h
    exact { State.RunsTo.refl s with }
  case nextFrameId =>
    cases h
    exact { State.RunsTo.refl s with fid := .inr rfl, results := List.prefix_append _ _ }
  case illegalCommand =>
    cases h
    exact .refl _
  case encode m =>
    obtain rfl | h := execEncode_encodesTo h
    · exact { State.RunsTo.refl s with }
    · exact h.toRunsTo
  case rxStart | rxEsc | rxData => exact (execFor_receivesTo rfl h).toRunsTo
  case encAtCommand | encAtCommandQueueParameterValue | encRemoteAtCommandRequest
    | encZigbeeTransmitRequest | encExplicitAddressingZigbeeCommandFrame | encTxRequest64 | encTxRequest16
    | encCreateSourceRoute => exact (execFor_encodesTo rfl h).toRunsTo
  case atNd | atIsRemote | atOther => exact execFor_decode_runsTo (.inr rfl) h
  all_goals exact execFor_decode_runsTo (.inl rfl) h

/-- RESET keeps the output ports too. -/
theorem execReset_ports {c : ConfigRecord} {s t : State} (h : execReset c s = .next t) :
    t.events = s.events ∧ t.results = s.results := by
  rw [execReset] at h
  split at h <;> cases h <;> exact ⟨rfl, rfl⟩

/-- Settles O11. -/
theorem onlyResetWritesConfiguration : Obligations.OnlyResetWritesConfiguration := by
  unfold Obligations.OnlyResetWritesConfiguration
  intro i s t hi h
  rw [exec_eq_execFor] at h
  exact (execFor_runsTo hi h).cfg

/-- Settles O13: FID is kept or advanced, and an advance never gives 0. -/
theorem frameIdCounterStaysNonzero : Obligations.FrameIdCounterStaysNonzero := by
  unfold Obligations.FrameIdCounterStaysNonzero
  intro i s t hi hs h
  rw [exec_eq_execFor] at h
  obtain e | e := (execFor_runsTo hi h).fid <;> rw [e]
  · exact hs
  · exact nextFid_ne_zero s.fid

/-- Settles O17: ENCODE's own effect is its pending dispatch or that of a serializer. -/
theorem encodeKeepsReassembler : Obligations.EncodeKeepsReassembler := by
  unfold Obligations.EncodeKeepsReassembler
  intro i s t hi h
  rw [exec_eq_execFor] at h
  obtain hi | ⟨m, rfl⟩ := hi
  · have he := execFor_encodesTo hi h
    exact ⟨he.scanner, he.cfg, he.rxq, he.cmdq⟩
  · obtain rfl | he := execEncode_encodesTo h
    · exact ⟨.refl s, rfl, rfl, rfl⟩
    · exact ⟨he.scanner, he.cfg, he.rxq, he.cmdq⟩

/-- Settles O18: RESET keeps the output ports, every other instruction appends to them. -/
theorem eventsAndResultsAreOnlyAppended : Obligations.EventsAndResultsAreOnlyAppended := by
  unfold Obligations.EventsAndResultsAreOnlyAppended
  intro i s t h
  rw [exec_eq_execFor] at h
  suffices hports : s.events <+: t.events ∧ s.results <+: t.results by
    obtain ⟨⟨es, he⟩, rs, hr⟩ := hports
    exact ⟨⟨es, he.symm⟩, rs, hr.symm⟩
  by_cases hreset : ∃ c, i = .reset c
  · obtain ⟨c, rfl⟩ := hreset
    obtain ⟨he, hr⟩ := execReset_ports h
    rw [he, hr]
    exact ⟨List.prefix_refl _, List.prefix_refl _⟩
  · have hrun := execFor_runsTo (fun c hc => hreset ⟨c, hc⟩) h
    exact ⟨hrun.events, hrun.results⟩

/-- An append leaves every index of RXBUF but CNT. -/
theorem State.append_read_ne (s : State) (v : Byte) {a : Nat} (ha : a ≠ s.cnt) :
    (s.append v).rxbuf.read a = s.rxbuf.read a := by
  by_cases hroom : s.cnt < s.cfg.rxCap.toNat
  · rw [State.append_rxbuf v hroom, Memory.read_write_ne _ _ ha]
  · rw [State.append_of_full v (Nat.not_lt.1 hroom)]
    rfl

/-- With the buffer full an append leaves RXBUF. -/
theorem State.append_rxbuf_of_full {s : State} (v : Byte) (h : s.cfg.rxCap.toNat ≤ s.cnt) :
    (s.append v).rxbuf = s.rxbuf := by
  rw [State.append_of_full v h]
  rfl

/-- Settles O37: each row's effect on RXBUF is that of one append, from CNT = 0 for a start marker. -/
theorem receivedByteWritesOneIndex : Obligations.ReceivedByteWritesOneIndex := by
  unfold Obligations.ReceivedByteWritesOneIndex
  intro s t b i hi h
  have hkept : s.ReceivesTo t := by
    rw [exec_eq_execFor] at h
    obtain rfl | rfl | rfl := hi <;> exact execFor_receivesTo rfl h
  refine ⟨hkept.encoder, hkept.cfg, hkept.cmdq, hkept.rxq, ?_, ?_, ?_, ?_⟩
  · rintro rfl a ha
    cases h
    exact State.append_read_ne _ _ ha
  · rintro rfl
    cases h
    rfl
  · rintro rfl a ha
    cases hw : s.waiting with
    | true => rw [exec_rxData_of_waiting b hw] at h; cases h; rfl
    | false => rw [exec_rxData_of_scanning b hw] at h; cases h; exact State.append_read_ne _ _ ha
  · rintro rfl hstays
    cases hw : s.waiting with
    | true => rw [exec_rxData_of_waiting b hw] at h; cases h; rfl
    | false =>
      have hfull : s.cfg.rxCap.toNat ≤ s.cnt := hstays.resolve_left (by simp [hw])
      rw [exec_rxData_of_scanning b hw] at h
      cases h
      exact State.append_rxbuf_of_full _ hfull

end Sys2Proof.Machine
end

section
/-! Where a step finds its item and what it takes (spec/44_host_interface.md R350, R358, spec/20_memory.md R83);
the step of a command. -/

namespace Sys2Proof.Machine

variable {P : Parameters} {s : State}

/-! ## Fetch and consume -/

theorem fetch_rxByte {b : Byte} {bs : List Byte} (hphase : s.phase = .idle) (hrxq : s.rxq = b :: bs) :
    s.fetch = .item (.rxByte s.rxContext b) ∧ s.consume = { s with rxq := bs } := by
  simp only [State.fetch, State.consume, hphase, hrxq, and_self]

theorem fetch_command {c : Command} {cs : List Command} (hphase : s.phase = .idle) (hrxq : s.rxq = [])
    (hcmdq : s.cmdq = c :: cs) : s.fetch = .item (.command c) ∧ s.consume = { s with cmdq := cs } := by
  simp only [State.fetch, State.consume, hphase, hrxq, hcmdq, List.tail_cons, and_self]

theorem fetch_nothing (hphase : s.phase = .idle) (hrxq : s.rxq = []) (hcmdq : s.cmdq = []) :
    s.fetch = .nothing := by
  simp only [State.fetch, hphase, hrxq, hcmdq]

theorem fetch_serialize {m : Message} (hphase : s.phase = .serialize m) :
    s.fetch = .item (.message m) ∧ s.consume = { s with phase := .idle } := by
  simp only [State.fetch, State.consume, hphase, and_self]

theorem fetch_emitFrame {f : List Byte} (hphase : s.phase = .emitFrame) (hf : s.frame = some f) :
    s.fetch = .item (.frame s.cfg.rawFrames (taggedBytes f)) ∧ s.consume = { s with phase := .idle } := by
  simp only [State.fetch, State.consume, hphase, hf, and_self]

theorem fetch_atBranch {remote : Bool} {m : Message} {c : Cursor} (hphase : s.phase = .atBranch remote m c) :
    s.fetch = .item (.atBranch remote m c) ∧ s.consume = { s with phase := .idle } := by
  simp only [State.fetch, State.consume, hphase, and_self]

/-! ## One instruction, and the dispatches it leaves -/

theorem microFor_item {it : Item} {i : Instr} (hfetch : s.fetch = .item it) (hi : decode it P = .ok i) :
    microFor P s = execFor P i s.consume := by
  simp only [microFor, microWith, hfetch, hi]

theorem settle_eq_settleFor (n : Nat) (o : Host.Outcome State Fault Refusal) :
    settle n o = settleFor Params.default n o := by
  rw [settle, settleFor, show exec = execFor Params.default from funext₂ exec_eq_execFor]

theorem micro_eq_microFor (s : State) : micro s = microFor Params.default s := by
  rw [micro, microFor, show exec = execFor Params.default from funext₂ exec_eq_execFor]

/-- The step of a command: its instruction on the state without it, then the dispatch it leaves. -/
theorem stepFor_command {c : Command} {cs : List Command} (hphase : s.phase = .idle) (hrxq : s.rxq = [])
    (hcmdq : s.cmdq = c :: cs) :
    stepFor P s = settleFor P 2 (execFor P (decodeCommand c) { s with cmdq := cs }) := by
  obtain ⟨hfetch, hconsume⟩ := fetch_command hphase hrxq hcmdq
  rw [stepFor_eq_settleFor, microFor_item hfetch rfl, hconsume]

/-- With nothing issued the block waits (log 23). -/
theorem stepFor_nothing (hphase : s.phase = .idle) (hrxq : s.rxq = []) (hcmdq : s.cmdq = []) :
    stepFor P s = .next s := by
  rw [stepFor_eq_settleFor]
  simp only [microFor, microWith, fetch_nothing hphase hrxq hcmdq]
  exact settleFor_of_idle 2 hphase

/-! ## ENCODE (R185, R355) -/

/-- A message whose type has an ENC row decodes to that row, which runs the type's serializer on it. -/
theorem decode_message_of_row {m : Message} {ty : FrameType} (hty : P.serializerType m.type = some ty)
    (hrow : encRows.contains ty = true) :
    ∃ i, decode (.message m) P = .ok i ∧ ∀ s, execFor P i s = s.serialize P ty m := by
  simp only [decode, decodeMessage, hty]
  cases ty
  case atCommand | atCommandQueueParameterValue | remoteAtCommandRequest | zigbeeTransmitRequest
    | explicitAddressingZigbeeCommandFrame | txRequest64 | txRequest16 | createSourceRoute =>
    exact ⟨_, rfl, fun _ => rfl⟩
  all_goals exact absurd hrow Bool.false_ne_true

/-- A serializer leaves no dispatch. -/
theorem settleFor_serialize (n : Nat) (ty : FrameType) (m : Message) (hphase : s.phase = .idle) :
    settleFor P n (s.serialize P ty m) = s.serialize P ty m := by
  obtain ⟨t, ht, hkept⟩ := s.serialize_encodesTo P ty m
  rw [ht]
  exact settleFor_of_idle n (hkept.phase.trans hphase)

/-- ENCODE with its dispatch is the serializer of the message's type, in a row of its own or in ENCODE
(log 26). -/
theorem settleFor_execEncode {m : Message} {ty : FrameType} (hphase : s.phase = .idle)
    (hty : P.serializerType m.type = some ty) :
    settleFor P 2 (execEncode m s P) = s.serialize P ty m := by
  by_cases hrow : encRows.contains ty = true
  · have hdispatch : execEncode m s P = .next { s with phase := .serialize m } := by
      simp only [execEncode, hty, hrow, if_true]
    obtain ⟨i, hi, hrun⟩ := decode_message_of_row hty hrow
    have hback : { s with phase := .idle } = s := by rw [← hphase]
    rw [hdispatch, settleFor_of_pending 1 Phase.noConfusion, microFor_item rfl hi, hrun]
    exact (congrArg (fun u => settleFor P 1 (State.serialize u P ty m)) hback).trans
      (settleFor_serialize 1 ty m hphase)
  · have hown : execEncode m s P = s.serialize P ty m := by
      simp only [execEncode, hty, if_neg hrow]
    rw [hown, settleFor_serialize 2 ty m hphase]

/-- A type without a serializer is reported. -/
theorem execEncode_of_none {m : Message} (hty : P.serializerType m.type = none) :
    execEncode m s P = .next (s.emit (.unsupportedFrameType m.type)) := by
  simp only [execEncode, hty]

/-- The tags of the default serializer registry. -/
theorem default_serializerType_eq_none_iff (tag : Byte) :
    Params.default.serializerType tag = none ↔
      tag ∉ ([0x00, 0x01, 0x08, 0x09, 0x10, 0x11, 0x17, 0x21] : List Byte) := by
  revert tag; decide

/-- Every serializer of the default registry has a row of its own. -/
theorem default_serializerType_row {tag : Byte} {ty : FrameType}
    (h : Params.default.serializerType tag = some ty) : encRows.contains ty = true := by
  have hreg : (Params.default.encReg ty).isSome = true := (Parameters.typeOf_some h).1
  cases ty <;> first | rfl | exact absurd hreg Bool.false_ne_true

/-- Settles O3: each clause is one of the rules for fetch, consume and settle above. -/
theorem stepRunsDecodedInstruction : Obligations.StepRunsDecodedInstruction := by
  unfold Obligations.StepRunsDecodedInstruction
  refine ⟨fun s it i hfetch hi => ?_, fun s b bs => fetch_rxByte, fun s c cs => fetch_command,
    fun s m => fetch_serialize, fun s f => fetch_emitFrame, fun s remote m c => fetch_atBranch,
    fun n s h => ?_, fun n s h => ?_⟩
  · rw [step_eq_stepFor, settle_eq_settleFor, stepFor_eq_settleFor, microFor_item hfetch hi, exec_eq_execFor]
  · rw [settle_eq_settleFor, settleFor_of_idle n h]
  · rw [settle_eq_settleFor, settleFor_of_pending n h, settle_eq_settleFor, micro_eq_microFor]

/-- Settles O15: a default tag decodes to a row exactly when it has a serializer. -/
theorem encodeDispatchesByType : Obligations.EncodeDispatchesByType := by
  unfold Obligations.EncodeDispatchesByType
  intro m s
  have hnone := default_serializerType_eq_none_iff m.type
  refine ⟨fun ⟨i, hi⟩ => ?_, ?_, fun h => execEncode_of_none (hnone.2 h)⟩
  · obtain ⟨ty, hty, -⟩ := exec_of_decode_message hi
    simp only [exec, execEncode, hty, default_serializerType_row hty, if_true]
  · rw [← hnone]
    refine ⟨fun h i hi => ?_, fun h => ?_⟩
    · obtain ⟨ty, hty, -⟩ := exec_of_decode_message hi
      rw [h] at hty
      cases hty
    · cases hty : Params.default.serializerType m.type with
      | none => rfl
      | some ty =>
        obtain ⟨i, hi, -⟩ := decode_message_of_row hty (default_serializerType_row hty)
        exact absurd hi (h i)

/-- Settles O16: the command's step is ENCODE with its dispatch, which is the serializer. -/
theorem encodeCommandIsOneStep : Obligations.EncodeCommandIsOneStep := by
  unfold Obligations.EncodeCommandIsOneStep
  intro s c cs hphase hrxq hcmdq hcode
  have hstep : ∀ (P : Parameters) (ty : FrameType), P.serializerType c.message.type = some ty →
      stepFor P s = State.serialize { s with cmdq := cs } P ty c.message := by
    intro P ty hty
    rw [stepFor_command hphase hrxq hcmdq, decodeCommand_encode hcode]
    exact settleFor_execEncode (s := { s with cmdq := cs }) hphase hty
  refine ⟨fun t i hi ht => ?_, hstep⟩
  obtain ⟨ty, hty, hrun⟩ := exec_of_decode_message hi
  rw [step_eq_stepFor, hstep _ ty hty, ← hrun, ht]

end Sys2Proof.Machine
end

section
/-! The host commands (spec/44_host_interface.md R351 to R360) and power-up (spec/70_reset_and_hazards.md R420). -/

namespace Sys2Proof.Machine

/-! ## RESET (R354, R11) -/

theorem legalConfig_iff (c : ConfigRecord) :
    legalConfig c = true ↔ (c.apiMode = 1 ∨ c.apiMode = 2) ∧ c.rawFrames ≤ 1 ∧ c.convertAdc ≤ 1 ∧
      c.vrefAdc ≤ 65535 ∧ 5 ≤ c.rxCap ∧ c.rxCap ≤ 65539 ∧ 5 ≤ c.txCap :=
  decide_eq_true_iff

theorem execReset_of_legal {c : ConfigRecord} (h : legalConfig c = true) (s : State) :
    execReset c s = .next (s.resetTo (ConfigRegs.ofRecord c)) :=
  if_pos h

theorem execReset_of_illegal {c : ConfigRecord} (h : ¬legalConfig c = true) (s : State) :
    execReset c s = .next s :=
  if_neg h

/-- Every register at its reset value, the ports as they were. -/
theorem State.resetTo_eq (s : State) (c : ConfigRegs) :
    s.resetTo c = { State.reset with
      cfg := c, events := s.events, results := s.results, cmdq := s.cmdq, rxq := s.rxq } := rfl

/-- A one-bit register holds a record's 0 or 1. -/
theorem toNat_beq_one {n : Nat} (h : n ≤ 1) : (n == 1).toNat = n := by
  obtain rfl | rfl : n = 0 ∨ n = 1 := by omega
  · rfl
  · rfl

/-- The registers hold a legal record's numbers, TX_CAP up to its 32-bit register's greatest value (log 15). -/
theorem ConfigRegs.ofRecord_toNat {c : ConfigRecord} (h : legalConfig c = true) :
    (ofRecord c).apiMode.toNat = c.apiMode ∧ (ofRecord c).rawFrames.toNat = c.rawFrames ∧
      (ofRecord c).convertAdc.toNat = c.convertAdc ∧ (ofRecord c).vrefAdc.toNat = c.vrefAdc ∧
      (ofRecord c).rxCap.toNat = c.rxCap ∧ (ofRecord c).txCap.toNat = min c.txCap 4294967295 := by
  obtain ⟨hmode, hraw, hconvert, hvref, -, hrx, -⟩ := (legalConfig_iff c).1 h
  refine ⟨?_, toNat_beq_one hraw, toNat_beq_one hconvert, ?_, ?_, ?_⟩ <;>
    · rw [ofRecord, BitVec.toNat_ofNat]
      exact Nat.mod_eq_of_lt (by omega)

/-- Settles O7: the default CFG_INIT is one legal record. -/
theorem powerUpIsResetOfCfgInit : Obligations.PowerUpIsResetOfCfgInit := by
  unfold Obligations.PowerUpIsResetOfCfgInit
  have hreset : ∀ (P : Parameters) (s : State), legalConfig P.cfgInit = true →
      ∃ t, execFor P (.reset P.cfgInit) s = .next t ∧
        { t with events := [], results := [], cmdq := [], rxq := [] } = State.resetFor P :=
    fun P s h => ⟨_, execReset_of_legal h s, rfl⟩
  exact ⟨fun s => hreset Params.default s (by decide), hreset,
    fun P => ⟨rfl, rfl, rfl, rfl, rfl, rfl, rfl, rfl⟩⟩

/-- Settles O8: a record in its ranges is legal, and each register holds its number. -/
theorem resetLoadsLegalConfiguration : Obligations.ResetLoadsLegalConfiguration := by
  unfold Obligations.ResetLoadsLegalConfiguration
  intro c s hmode hraw hconvert hvref hrx hrx' htx
  have hlegal := (legalConfig_iff c).2 ⟨hmode, hraw, hconvert, hvref, hrx, hrx', htx⟩
  obtain ⟨emode, eraw, econvert, evref, erx, etx⟩ := ConfigRegs.ofRecord_toNat hlegal
  refine ⟨_, execReset_of_legal hlegal s, State.resetTo_eq s _, emode, eraw, econvert, evref, erx, ?_, ?_⟩
  · intro h
    exact etx.trans (Nat.min_eq_left h)
  · intro h
    exact etx.trans (Nat.min_eq_right (Nat.le_of_lt h))

/-- Settles O9: a value out of range makes the record illegal. -/
theorem illegalConfigurationIsRefused : Obligations.IllegalConfigurationIsRefused := by
  unfold Obligations.IllegalConfigurationIsRefused
  intro c s h
  refine execReset_of_illegal (fun hlegal => ?_) s
  have hranges := (legalConfig_iff c).1 hlegal
  omega

/-- Settles O10: the step takes the command, and its instruction changes nothing and leaves no dispatch. -/
theorem unknownCommandIsRefused : Obligations.UnknownCommandIsRefused := by
  unfold Obligations.UnknownCommandIsRefused
  refine ⟨fun code s => rfl, fun c h1 h2 h3 h4 => ?_⟩
  have hdecode := decodeCommand_of_unknown h1 h2 h3 h4
  refine ⟨congrArg Except.ok hdecode, fun s cs hphase hrxq hcmdq => ?_⟩
  rw [step_eq_stepFor, stepFor_command hphase hrxq hcmdq, hdecode]
  exact settleFor_of_idle 2 hphase

/-- Settles O14: the statement is FEED's own equation. -/
theorem feedHandsChunkToScanner : Obligations.FeedHandsChunkToScanner := by
  unfold Obligations.FeedHandsChunkToScanner
  exact fun c s => rfl

end Sys2Proof.Machine
end

section
/-! What RxStep keeps (spec/43_reassembler.md R301), and the step of any state between steps. -/

namespace Sys2Proof.Machine

variable {P : Parameters} {s : State}

/-! ## RxStep -/

/-- Sub-step (5): the byte at CNT, not yet interpreted (R306). -/
abbrev State.written (s : State) (v : Byte) : State :=
  { s with rxbuf := s.rxbuf.write s.cnt v, cnt := s.cnt + 1 }

/-- Sub-steps (5) and (6): the capacity fault, an interpretation that completes no frame, or a completion with its
mismatch and its frame-level event (R307 to R316). -/
theorem refAppend_cases (v : Byte) (s : State) (P : Parameters) :
    s.cfg.rxCap.toNat ≤ s.cnt ∧
      refAppend v s P = State.emit { s with waiting := true } (.capacityExceeded s.cfg.rxCap.toNat) ∨
    s.cnt < s.cfg.rxCap.toNat ∧
      (¬(s.written v).AtChecksum ∧ refAppend v s P = (s.written v).interpret v ∨
        (s.written v).AtChecksum ∧ refAppend v s P =
          State.emit { (s.written v).complete v with phase := s.phase }
            (refFrameEvent s.cfg ((s.rxbuf.write s.cnt v).readBytes 0 (s.cnt + 1)) P)) := by
  by_cases hroom : s.cnt < s.cfg.rxCap.toNat
  · refine .inr ⟨hroom, ?_⟩
    rw [refAppend, if_pos hroom]
    by_cases h : (s.written v).AtChecksum
    · exact .inr ⟨h, refInterpret_of_checksum v h⟩
    · exact .inl ⟨h, refInterpret_eq_interpret v h⟩
  · refine .inl ⟨Nat.not_lt.1 hroom, ?_⟩
    rw [refAppend, if_neg hroom]
    rfl

/-- The class of a received byte (R121) selects what RxStep does with it. -/
theorem refRxStep_cases (b : Byte) (s : State) (P : Parameters) :
    s.StartsAt b ∧ refRxStep b s P = refAppend 0x7E { s.startFrame with last := 0x7E } P ∨
    s.cfg.apiMode = 2 ∧ refRxStep b s P = { s with last := 0x7D, escPend := true } ∨
    s.waiting = true ∧ refRxStep b s P = { s with last := s.unescaped b, escPend := false } ∨
    s.waiting = false ∧
      refRxStep b s P = refAppend (s.unescaped b) { s with last := s.unescaped b, escPend := false } P := by
  by_cases hstart : s.StartsAt b
  · obtain rfl : b = 0x7E := hstart.1
    exact .inl ⟨hstart, refRxStep_of_start hstart⟩
  by_cases hescape : s.cfg.apiMode = 2 ∧ b = 0x7D
  · obtain ⟨hm, rfl⟩ := hescape
    exact .inr (.inl ⟨hm, refRxStep_of_escape hm⟩)
  have hdata := refRxStep_of_data (P := P) hstart hescape
  by_cases hw : s.waiting = true
  · exact .inr (.inr (.inl ⟨hw, hdata.trans (if_pos hw)⟩))
  · exact .inr (.inr (.inr ⟨Bool.eq_false_iff.2 hw, hdata.trans (if_neg hw)⟩))

/-- What RxStep keeps: all that a received byte keeps, and the phase. -/
theorem refAppend_receivesTo (v : Byte) (s : State) (P : Parameters) :
    s.ReceivesTo (refAppend v s P) ∧ (refAppend v s P).phase = s.phase := by
  have hwritten : s.ReceivesTo (s.written v) :=
    { State.ReceivesTo.refl s with memory := Memory.wf_write _ _ }
  obtain ⟨-, e⟩ | ⟨-, ⟨h, e⟩ | ⟨-, e⟩⟩ := refAppend_cases v s P <;> rw [e]
  · exact ⟨{ State.ReceivesTo.refl s with events := List.prefix_append _ _ }, rfl⟩
  · have hrun := State.interpret_receivesTo (s.written v) v
    exact ⟨{ hrun with memory := hrun.memory ∘ hwritten.memory }, State.interpret_phase v h⟩
  · rw [State.complete_eq]
    exact ⟨{ hwritten with
      events := (List.prefix_append _ _).trans (List.prefix_append _ _) }, rfl⟩

theorem refRxStep_receivesTo (b : Byte) (s : State) (P : Parameters) :
    s.ReceivesTo (refRxStep b s P) ∧ (refRxStep b s P).phase = s.phase := by
  obtain ⟨-, e⟩ | ⟨-, e⟩ | ⟨-, e⟩ | ⟨-, e⟩ := refRxStep_cases b s P <;> rw [e]
  · obtain ⟨h, hphase⟩ := refAppend_receivesTo 0x7E { s.startFrame with last := 0x7E } P
    exact ⟨{ h with }, hphase⟩
  · exact ⟨{ State.ReceivesTo.refl s with }, rfl⟩
  · exact ⟨{ State.ReceivesTo.refl s with }, rfl⟩
  · obtain ⟨h, hphase⟩ :=
      refAppend_receivesTo (s.unescaped b) { s with last := s.unescaped b, escPend := false } P
    exact ⟨{ h with }, hphase⟩

/-! ## The step between steps -/

/-- What a command does with its dispatch: a FEED's chunk to the scanner, a RESET, or what the encoder can. -/
theorem settleFor_decodeCommand (P : Parameters) (c : Command) (hphase : s.phase = .idle) :
    ∃ t, settleFor P 2 (execFor P (decodeCommand c) s) = .next t ∧
      ((∃ q, t = { s with rxq := q }) ∨
        (∃ r, legalConfig r = true ∧ t = s.resetTo (ConfigRegs.ofRecord r)) ∨ s.EncodesTo t) := by
  cases hc : decodeCommand c
  case feed chunk => exact ⟨_, settleFor_of_idle 2 hphase, .inl ⟨_, rfl⟩⟩
  case encode m =>
    cases hty : P.serializerType m.type with
    | none =>
      refine ⟨_, ?_, .inr (.inr (.emit s (.unsupportedFrameType m.type)))⟩
      exact (congrArg (settleFor P 2) (execEncode_of_none hty)).trans (settleFor_of_idle 2 hphase)
    | some ty =>
      obtain ⟨t, ht, hkept⟩ := s.serialize_encodesTo P ty m
      exact ⟨t, (settleFor_execEncode hphase hty).trans ht, .inr (.inr hkept)⟩
  case nextFrameId =>
    refine ⟨_, settleFor_of_idle 2 hphase, .inr (.inr ?_)⟩
    exact { State.EncodesTo.refl s with fid := .inr rfl, results := List.prefix_append _ _ }
  case reset r =>
    by_cases hr : legalConfig r = true
    · refine ⟨_, ?_, .inr (.inl ⟨r, hr, rfl⟩)⟩
      exact (congrArg (settleFor P 2) (execReset_of_legal hr s)).trans (settleFor_of_idle 2 rfl)
    · refine ⟨_, ?_, .inr (.inr (.refl s))⟩
      exact (congrArg (settleFor P 2) (execReset_of_illegal hr s)).trans (settleFor_of_idle 2 hphase)
  case illegalCommand => exact ⟨s, settleFor_of_idle 2 hphase, .inr (.inr (.refl s))⟩
  all_goals
    rw [decodeCommand] at hc
    split at hc <;> cases hc

/-- The step of a state between steps: RxStep of the next byte, the next command, or nothing. -/
theorem stepFor_cases (P : Parameters) (hphase : s.phase = .idle) :
    (∃ b bs, s.rxq = b :: bs ∧ stepFor P s = .next (refRxStep b { s with rxq := bs } P)) ∨
    (∃ c cs, s.cmdq = c :: cs ∧
      stepFor P s = settleFor P 2 (execFor P (decodeCommand c) { s with cmdq := cs })) ∨
    stepFor P s = .next s := by
  by_cases hrxq : s.rxq = []
  · by_cases hcmdq : s.cmdq = []
    · exact .inr (.inr (stepFor_nothing hphase hrxq hcmdq))
    · obtain ⟨c, cs, hcmdq⟩ := List.exists_cons_of_ne_nil hcmdq
      exact .inr (.inl ⟨c, cs, hcmdq, stepFor_command hphase hrxq hcmdq⟩)
  · obtain ⟨b, bs, hrxq⟩ := List.exists_cons_of_ne_nil hrxq
    exact .inl ⟨b, bs, hrxq, stepFor_eq_refRxStep P hphase hrxq⟩

theorem stepFor_settles (P : Parameters) (hphase : s.phase = .idle) :
    ∃ t, stepFor P s = .next t ∧ t.phase = .idle := by
  obtain ⟨b, bs, -, e⟩ | ⟨c, cs, -, e⟩ | e := stepFor_cases P hphase
  · exact ⟨_, e, (refRxStep_receivesTo b { s with rxq := bs } P).2.trans hphase⟩
  · obtain ⟨t, ht, hcases⟩ := settleFor_decodeCommand (s := { s with cmdq := cs }) P c hphase
    refine ⟨t, e.trans ht, ?_⟩
    obtain ⟨q, rfl⟩ | ⟨r, -, rfl⟩ | hkept := hcases
    · exact hphase
    · rfl
    · exact hkept.phase.trans hphase
  · exact ⟨s, e, hphase⟩

/-- Settles O46: each of the three kinds of step answers a next state in phase idle. -/
theorem noErrorEndsTheBlock : Obligations.NoErrorEndsTheBlock := by
  unfold Obligations.NoErrorEndsTheBlock
  intro s hphase
  refine ⟨?_, fun P => stepFor_settles P hphase⟩
  rw [step_eq_stepFor]
  exact stepFor_settles Params.default hphase

end Sys2Proof.Machine
end

section
/-! The invariants between steps (spec/10_state.md R42): they hold at power-up and every step keeps them. -/

namespace Sys2Proof.Machine

variable {P : Parameters} {s t : State}

/-! ## The sum (R114) -/

theorem sumBytes_append (d e : List Byte) : sumBytes (d ++ e) = sumBytes d + sumBytes e := by
  induction d with
  | nil => exact (BitVec.zero_add _).symm
  | cons b d ih => rw [List.cons_append, sumBytes_cons, sumBytes_cons, ih, BitVec.add_assoc]

theorem sumBytes_singleton (v : Byte) : sumBytes [v] = v := BitVec.add_zero v

/-! ## The scanner's invariants -/

/-- A byte past a length of 0 is stored in CHK (R312, R316). -/
theorem State.interpret_orphan (v : Byte) (h : 3 < s.cnt) (hlen : s.len.toNat = 0) :
    s.interpret v = { s with chk := v } := by
  rw [State.interpret, if_neg (by omega), if_neg (by omega), if_neg (by omega), if_neg (by omega),
    if_neg (by omega)]


/-- In Idle only the escape flag is constrained. -/
theorem ScannerInv.of_waiting (hw : s.waiting = true) (he : s.cfg.apiMode = 1 → s.escPend = false) :
    ScannerInv s where
  counted h := absurd (hw.symm.trans h) (by decide)
  lengthHigh h := absurd (hw.symm.trans h) (by decide)
  length h := absurd (hw.symm.trans h) (by decide)
  sumStart h := absurd (hw.symm.trans h) (by decide)
  sum h := absurd (hw.symm.trans h) (by decide)
  bounded h := absurd (hw.symm.trans h) (by decide)
  unescapedMode := he

/-- The invariants read the reassembler and the configuration only. -/
theorem ScannerInv.congr (h : ScannerInv s) (hsame : SameScanner s t) (hcfg : t.cfg = s.cfg) :
    ScannerInv t := by
  obtain ⟨hwaiting, hesc, hcnt, hlen, hsum, -, -, hrxbuf⟩ := hsame
  cases s; cases t
  cases hwaiting; cases hesc; cases hcnt; cases hlen; cases hsum; cases hrxbuf; cases hcfg
  exact { h with }

/-- A byte written after the header keeps R42 (a) and (b) of the frame so far. -/
theorem ScannerInv.written_header (h : ScannerInv s) (hw : s.waiting = false) (v : Byte) :
    (s.rxbuf.write s.cnt v).read 0 = 0x7E ∧
      (2 ≤ s.cnt → (s.rxbuf.write s.cnt v).read 1 = s.rxbuf.read 1) ∧
      (3 ≤ s.cnt → (s.rxbuf.write s.cnt v).read 2 = s.rxbuf.read 2) := by
  obtain ⟨hcnt, -, h0⟩ := h.counted hw
  refine ⟨?_, fun h2 => Memory.read_write_ne _ v (by omega), fun h3 => Memory.read_write_ne _ v (by omega)⟩
  rw [Memory.read_write_ne _ v (by omega), h0]

/-- A byte of the frame data extends R42 (c): the sum is that of the data so far, empty before the first byte. -/
theorem ScannerInv.sum_written (h : ScannerInv s) (hw : s.waiting = false) (hwf : s.rxbuf.wf) (v : Byte)
    (h3 : 3 ≤ s.cnt) (hlen : s.cnt ≤ s.len.toNat + 3) :
    s.sum + v = sumBytes ((s.rxbuf.write s.cnt v).readBytes 3 (s.cnt + 1 - 3)) := by
  have hsum : s.sum = sumBytes (s.rxbuf.readBytes 3 (s.cnt - 3)) := by
    by_cases h4 : 4 ≤ s.cnt
    · exact h.sum hw h4 hlen
    · have hcnt : s.cnt = 3 := by omega
      rw [h.sumStart hw (by omega), hcnt]
      rfl
  rw [Nat.sub_add_comm h3, Memory.readBytes_succ, Memory.readBytes_write _ v (by omega),
    Nat.add_sub_cancel' h3, Memory.read_write_self _ _ hwf, sumBytes_append, sumBytes_singleton, hsum]

/-- A byte interpreted inside a frame keeps the invariants, offset by offset. -/
theorem ScannerInv.interpret_written (h : ScannerInv s) (hw : s.waiting = false) (hwf : s.rxbuf.wf) (v : Byte)
    (hroom : s.cnt < s.cfg.rxCap.toNat) (hcheck : ¬(s.written v).AtChecksum) :
    ScannerInv ((s.written v).interpret v) := by
  obtain ⟨hcnt, -, -⟩ := h.counted hw
  obtain ⟨h0, h1, h2⟩ := h.written_header hw v
  have hself : (s.rxbuf.write s.cnt v).read s.cnt = v := Memory.read_write_self _ _ hwf
  have hcounted : 1 ≤ s.cnt + 1 ∧ s.cnt + 1 ≤ s.cfg.rxCap.toNat ∧ (s.rxbuf.write s.cnt v).read 0 = 0x7E :=
    ⟨by omega, hroom, h0⟩
  have hbounded := h.bounded hw
  by_cases hc1 : s.cnt = 1
  · rw [State.interpret_lengthHigh v (congrArg (· + 1) hc1), shiftLeft_eq_be16]
    rw [hc1] at hself
    exact {
      counted := fun _ => hcounted
      lengthHigh := fun _ _ => by simp only [hc1, hself]
      length := fun _ h3 => by simp only [hc1] at h3; omega
      sumStart := fun _ _ => h.sumStart hw (by omega)
      sum := fun _ h4 => by simp only [hc1] at h4; omega
      bounded := fun _ _ => by simp only [hc1]; omega
      unescapedMode := h.unescapedMode }
  by_cases hc2 : s.cnt = 2
  · have hlen : s.len + v.setWidth 16 = be16 (s.rxbuf.read 1) v := by
      rw [h.lengthHigh hw hc2, be16_zero_add]
    rw [State.interpret_lengthLow v (congrArg (· + 1) hc2)]
    rw [hc2] at hself h1
    exact {
      counted := fun _ => hcounted
      lengthHigh := fun _ h2 => by simp only [hc2] at h2; omega
      length := fun _ _ => by simp only [hlen, hc2, hself, h1 (Nat.le_refl 2)]
      sumStart := fun _ _ => h.sumStart hw (by omega)
      sum := fun _ h4 => by simp only [hc2] at h4; omega
      bounded := fun _ _ => by simp only [hc2]; omega
      unescapedMode := h.unescapedMode }
  have hc3 : 3 ≤ s.cnt := by omega
  have hlength : s.len = be16 ((s.rxbuf.write s.cnt v).read 1) ((s.rxbuf.write s.cnt v).read 2) := by
    rw [h1 (by omega), h2 hc3]
    exact h.length hw hc3
  by_cases hdata : s.cnt + 1 < s.len.toNat + 4
  · rw [State.interpret_data v (Nat.lt_succ_of_le hc3) hdata]
    exact {
      counted := fun _ => hcounted
      lengthHigh := fun _ h2 => absurd h2 (by simp only; omega)
      length := fun _ _ => hlength
      sumStart := fun _ h3 => absurd h3 (by simp only; omega)
      sum := fun _ _ _ => h.sum_written hw hwf v hc3 (by omega)
      bounded := fun _ _ => by simp only; omega
      unescapedMode := h.unescapedMode }
  · have hzero : s.len.toNat = 0 := by
      by_contra hne
      exact hcheck ⟨by simp only; omega, by simp only; omega⟩
    rw [State.interpret_orphan (s := s.written v) v (Nat.lt_succ_of_le hc3) hzero]
    exact {
      counted := fun _ => hcounted
      lengthHigh := fun _ h2 => absurd h2 (by simp only; omega)
      length := fun _ _ => hlength
      sumStart := fun _ h3 => absurd h3 (by simp only; omega)
      sum := fun _ _ h4 => absurd h4 (by simp only; omega)
      bounded := fun _ hpos => absurd hpos (by simp only; omega)
      unescapedMode := h.unescapedMode }

/-- An append inside a frame keeps the invariants: the capacity fault and a completion end in Idle. -/
theorem ScannerInv.refAppend (h : ScannerInv s) (hw : s.waiting = false) (hwf : s.rxbuf.wf) (v : Byte) :
    ScannerInv (refAppend v s P) := by
  obtain ⟨-, e⟩ | ⟨hroom, ⟨hcheck, e⟩ | ⟨-, e⟩⟩ := refAppend_cases v s P <;> rw [e]
  · exact .of_waiting rfl h.unescapedMode
  · exact h.interpret_written hw hwf v hroom hcheck
  · rw [State.complete_eq]
    exact .of_waiting rfl h.unescapedMode

/-- A start marker, with room for it, is the frame so far (R303, R308). -/
theorem refAppend_startFrame (s : State) (P : Parameters) (hroom : 0 < s.cfg.rxCap.toNat) :
    refAppend 0x7E { s.startFrame with last := 0x7E } P =
      { s with
        waiting := false, escPend := false, cnt := 1, len := 0, sum := 0, chk := 0, last := 0x7E
        rxbuf := s.rxbuf.write 0 0x7E } := by
  rw [Machine.refAppend, if_pos (by exact hroom)]
  rfl

/-- RxStep keeps the invariants. -/
theorem ScannerInv.refRxStep (h : ScannerInv s) (hwf : s.rxbuf.wf) (hcap : 5 ≤ s.cfg.rxCap.toNat) (b : Byte) :
    ScannerInv (refRxStep b s P) := by
  obtain ⟨-, e⟩ | ⟨hmode, e⟩ | ⟨hw, e⟩ | ⟨hw, e⟩ := refRxStep_cases b s P <;> rw [e]
  · rw [refAppend_startFrame s P (by omega)]
    exact {
      counted := fun _ => ⟨Nat.le_refl 1, by simp only; omega, Memory.read_write_self _ _ hwf⟩
      lengthHigh := fun _ h2 => absurd h2 (by simp)
      length := fun _ h3 => absurd h3 (by simp)
      sumStart := fun _ _ => rfl
      sum := fun _ h4 => absurd h4 (by simp)
      bounded := fun _ h0 => absurd h0 (by simp)
      unescapedMode := fun _ => rfl }
  · exact { h with unescapedMode := fun h1 => absurd (hmode.symm.trans h1) (by decide) }
  · exact .of_waiting hw fun _ => rfl
  · have hdata : ScannerInv { s with last := s.unescaped b, escPend := false } :=
      { h with unescapedMode := fun _ => rfl }
    exact hdata.refAppend hw hwf _

/-! ## The invariant of every step -/

/-- A legal reset state has the invariant. -/
theorem inv_resetTo {c : ConfigRecord} (h : legalConfig c = true) (s : State) :
    Inv (s.resetTo (ConfigRegs.ofRecord c)) := by
  obtain ⟨emode, -, -, -, erx, etx⟩ := ConfigRegs.ofRecord_toNat h
  obtain ⟨hmode, -, -, -, hrx, hrx', htx⟩ := (legalConfig_iff c).1 h
  exact {
    legalMode := hmode.imp (fun hm => BitVec.eq_of_toNat_eq (emode.trans hm))
      fun hm => BitVec.eq_of_toNat_eq (emode.trans hm)
    legalRxCap := by rw [State.resetTo_cfg, erx]; exact ⟨hrx, hrx'⟩
    legalTxCap := by rw [State.resetTo_cfg, etx]; omega
    memory := ⟨Memory.wf_nil, Memory.wf_nil⟩
    settled := rfl
    scanner := .of_waiting rfl fun _ => rfl }

theorem Inv.refRxStep (h : Inv s) (b : Byte) : Inv (refRxStep b s P) := by
  obtain ⟨hkept, hphase⟩ := refRxStep_receivesTo b s P
  obtain ⟨-, htx, -⟩ := hkept.encoder
  obtain ⟨hrxwf, htxwf⟩ := h.memory
  exact {
    legalMode := hkept.cfg ▸ h.legalMode
    legalRxCap := hkept.cfg ▸ h.legalRxCap
    legalTxCap := hkept.cfg ▸ h.legalTxCap
    memory := ⟨hkept.memory hrxwf, htx ▸ htxwf⟩
    settled := hphase.trans h.settled
    scanner := h.scanner.refRxStep hrxwf h.legalRxCap.1 b }

/-- The encoder keeps the invariant: it leaves the reassembler and the configuration alone. -/
theorem Inv.of_encodesTo (h : Inv s) (hkept : s.EncodesTo t) : Inv t := by
  obtain ⟨-, -, -, -, -, -, -, hrx⟩ := hkept.scanner
  obtain ⟨hrxwf, htxwf⟩ := h.memory
  exact {
    legalMode := hkept.cfg ▸ h.legalMode
    legalRxCap := hkept.cfg ▸ h.legalRxCap
    legalTxCap := hkept.cfg ▸ h.legalTxCap
    memory := ⟨hrx ▸ hrxwf, hkept.memory htxwf⟩
    settled := hkept.phase.trans h.settled
    scanner := h.scanner.congr hkept.scanner hkept.cfg }

/-- What stands on the input ports is no part of the invariant. -/
theorem Inv.of_input (h : Inv s) (q : List Byte) (c : List Command) : Inv { s with rxq := q, cmdq := c } :=
  { h with scanner := { h.scanner with } }

/-- Every step keeps the invariant: RxStep does, and what a command can come to does. -/
theorem Inv.stepFor (h : Inv s) (ht : stepFor P s = .next t) : Inv t := by
  obtain ⟨b, bs, -, e⟩ | ⟨c, cs, -, e⟩ | e := stepFor_cases P h.settled <;> rw [e] at ht
  · cases ht
    exact (h.of_input bs s.cmdq).refRxStep b
  · have hs : Inv { s with cmdq := cs } := h.of_input s.rxq cs
    obtain ⟨u, hu, hcases⟩ := settleFor_decodeCommand P c hs.settled
    rw [hu] at ht
    cases ht
    obtain ⟨q, rfl⟩ | ⟨r, hr, rfl⟩ | hkept := hcases
    · exact h.of_input q cs
    · exact inv_resetTo hr _
    · exact hs.of_encodesTo hkept
  · cases ht
    exact h

/-- Settles O44: power-up is a legal reset state. -/
theorem invariantHoldsAtPowerUp : Obligations.InvariantHoldsAtPowerUp := by
  unfold Obligations.InvariantHoldsAtPowerUp
  have hreset : ∀ P : Parameters, legalConfig P.cfgInit = true → Inv (State.resetFor P) :=
    fun P h => inv_resetTo h (State.resetFor P)
  exact ⟨hreset Params.default (by decide), hreset⟩

/-- Settles O45: the machine the host runs is one case of the step at any parameters. -/
theorem everyStepKeepsInvariant : Obligations.EveryStepKeepsInvariant := by
  unfold Obligations.EveryStepKeepsInvariant
  refine ⟨fun s t h ht => ?_, fun P s t => Inv.stepFor⟩
  rw [step_eq_stepFor] at ht
  exact h.stepFor ht

end Sys2Proof.Machine
end

section
/-! The three received-byte rows on a start marker, past a zero length and on a checksum byte
(spec/43_reassembler.md R303, R308, R312 to R316). -/

namespace Sys2Proof.Machine

/-- A start marker is RX_START exactly when it stands for itself (R121). -/
theorem decode_rxByte_start_iff (ctx : RxContext) :
    decode (.rxByte ctx 0x7E) = .ok .rxStart ↔
      ctx.waiting = true ∨ (ctx.escapedMode = true ∧ ctx.escPend = false) := by
  refine ⟨fun h => ?_, decode_rxByte_start⟩
  by_contra hdata
  rw [decode_rxByte_data (fun _ => hdata) fun hb => absurd hb (by decide)] at h
  cases h

/-- Settles O29: with room, the marker is the frame so far. -/
theorem startMarkerBeginsFrame : Obligations.StartMarkerBeginsFrame := by
  unfold Obligations.StartMarkerBeginsFrame
  refine ⟨decode_rxByte_start_iff, fun s hroom => ?_⟩
  have happend : State.append { s.startFrame with last := 0x7E } 0x7E = _ := State.append_of_room _ hroom
  exact congrArg Host.Outcome.next happend

/-- Settles O34: with a length of 0 a byte past the header is interpreted as an orphan. -/
theorem orphanByteIsStored : Obligations.OrphanByteIsStored := by
  unfold Obligations.OrphanByteIsStored
  intro s b hw hroom hcnt hlen
  have hzero : s.len.toNat = 0 := by rw [hlen]; rfl
  refine (exec_rxData_of_room b hw hroom).trans (congrArg Host.Outcome.next ?_)
  exact State.interpret_orphan _ (Nat.lt_succ_of_le hcnt) hzero

/-- Settles O35: the byte at offset length + 4 completes the frame. -/
theorem checksumByteCompletesFrame : Obligations.ChecksumByteCompletesFrame := by
  unfold Obligations.ChecksumByteCompletesFrame
  intro s b hw hroom hpos hend
  refine (exec_rxData_of_room b hw hroom).trans (congrArg Host.Outcome.next ?_)
  refine (State.interpret_of_checksum _ ?_).trans (State.complete_eq _ _)
  exact ⟨hpos, hend⟩

end Sys2Proof.Machine
end

section
/-! Runs over received bytes (spec/44_host_interface.md R352, R353, spec/43_reassembler.md R320). -/

namespace Sys2Proof.Machine

variable {P : Parameters} {s : State}

/-! ## RxStep does not see the input ports -/

/-- The state with other contents of the two input ports. -/
abbrev State.withInput (s : State) (q : List Byte) (c : List Command) : State := { s with rxq := q, cmdq := c }

variable (q : List Byte) (c : List Command)

theorem refStart_withInput (b : Byte) (s : State) :
    refStart b (s.withInput q c) = (refStart b s).withInput q c := by
  simp only [refStart]
  split_ifs <;> rfl

theorem refInterpret_withInput (v : Byte) (s : State) :
    refInterpret v (s.withInput q c) P = (refInterpret v s P).withInput q c := by
  simp only [refInterpret]
  split_ifs <;> rfl

theorem refAppend_withInput (v : Byte) (s : State) :
    refAppend v (s.withInput q c) P = (refAppend v s P).withInput q c := by
  simp only [refAppend]
  split_ifs
  · exact refInterpret_withInput q c v (s.written v)
  · rfl

theorem refDeliver_withInput (b : Byte) (s : State) :
    refDeliver b (s.withInput q c) P = (refDeliver b s P).withInput q c := by
  simp only [refDeliver]
  split_ifs
  · rfl
  · exact refAppend_withInput q c _ { s with escPend := false, last := b ^^^ 0x20 }
  · rfl
  · exact refAppend_withInput q c b s

theorem refRxStep_withInput (b : Byte) (s : State) :
    refRxStep b (s.withInput q c) P = (refRxStep b s P).withInput q c := by
  simp only [refRxStep, refStart_withInput]
  split_ifs
  · rfl
  · exact refDeliver_withInput q c b { refStart b s with last := b }

/-! ## Runs over the bytes of a FEED -/

/-- The fold of RxStep over received bytes (R352). -/
abbrev rxFold (g : List Byte) (s : State) : State := g.foldl (fun t b => refRxStep b t) s

/-- What the fold keeps. -/
theorem rxFold_kept (g : List Byte) (s : State) :
    (rxFold g s).phase = s.phase ∧ (rxFold g s).rxq = s.rxq ∧ (rxFold g s).cmdq = s.cmdq := by
  induction g generalizing s with
  | nil => exact ⟨rfl, rfl, rfl⟩
  | cons b g ih =>
    obtain ⟨hphase, hrxq, hcmdq⟩ := ih (refRxStep b s)
    obtain ⟨hkept, hidle⟩ := refRxStep_receivesTo b s Params.default
    exact ⟨hphase.trans hidle, hrxq.trans hkept.rxq, hcmdq.trans hkept.cmdq⟩

theorem rxFold_withInput (g : List Byte) (s : State) :
    rxFold g (s.withInput q c) = (rxFold g s).withInput q c := by
  induction g generalizing s with
  | nil => rfl
  | cons b g ih =>
    rw [rxFold, List.foldl_cons, refRxStep_withInput]
    exact ih (refRxStep b s)

/-- Running over bytes is the fold of RxStep, one byte a step (log 11). -/
theorem run_received (g more : List Byte) (hphase : s.phase = .idle) :
    run g.length (s.withInput (g ++ more) c) = .next ((rxFold g s).withInput more c) := by
  induction g generalizing s with
  | nil => rfl
  | cons b g ih =>
    have hstep : step (s.withInput (b :: (g ++ more)) c) =
        .next ((refRxStep b s).withInput (g ++ more) c) := by
      rw [step_eq_stepFor, stepFor_eq_refRxStep (s := s.withInput (b :: (g ++ more)) c) _ hphase rfl]
      exact congrArg Host.Outcome.next (refRxStep_withInput _ _ b s)
    exact (run_succ g.length hstep).trans (ih ((refRxStep_receivesTo b s _).2.trans hphase))

/-- The step of a FEED hands its chunk to the scanner. -/
theorem step_feed {k : Command} {cs : List Command} (hphase : s.phase = .idle) (hrxq : s.rxq = [])
    (hcmdq : s.cmdq = k :: cs) (hcode : k.code = 0x01) : step s = .next (s.withInput k.chunk cs) := by
  have hexec : execFor Params.default (.feed k.chunk) { s with cmdq := cs } =
      .next (s.withInput k.chunk cs) := by
    rw [execFor, execFeed, hrxq, List.nil_append]
  rw [step_eq_stepFor, stepFor_command hphase hrxq hcmdq, decodeCommand_feed hcode, hexec]
  exact settleFor_of_idle 2 hphase

/-- A FEED runs to the fold of RxStep over its chunk. -/
theorem run_feed {k : Command} {cs : List Command} (hphase : s.phase = .idle) (hrxq : s.rxq = [])
    (hcmdq : s.cmdq = k :: cs) (hcode : k.code = 0x01) :
    run (1 + k.chunk.length) s = .next (rxFold k.chunk { s with cmdq := cs }) := by
  have hrun := run_received cs k.chunk [] hphase
  rw [List.append_nil, ← rxFold_withInput] at hrun
  have hinput : s.withInput [] cs = { s with cmdq := cs } := by rw [State.withInput, ← hrxq]
  rw [Nat.add_comm, run_succ _ (step_feed hphase hrxq hcmdq hcode), hrun, hinput]

/-- Settles O39, by the step of the command and then a step for each byte of the chunk. -/
theorem feedRunsToFoldOfRxStep : Obligations.FeedRunsToFoldOfRxStep := by
  unfold Obligations.FeedRunsToFoldOfRxStep
  exact fun s k cs => run_feed

/-- Settles O40: the fold over both chunks is the fold over the second after the fold over the first, which leaves
the second command on the port. -/
theorem splitFeedsAgree : Obligations.SplitFeedsAgree := by
  unfold Obligations.SplitFeedsAgree
  intro s k1 k2 k cs hphase hrxq h1 h2 hk hchunk
  have hfirst := run_feed (s := { s with cmdq := k1 :: k2 :: cs }) hphase hrxq rfl h1
  obtain ⟨hphase', hrxq', hcmdq'⟩ := rxFold_kept k1.chunk { s with cmdq := k2 :: cs }
  have hsecond := run_feed (hphase'.trans hphase) (hrxq'.trans hrxq) hcmdq' h2
  have hboth := run_feed (s := { s with cmdq := k :: cs }) hphase hrxq rfl hk
  have hports : ({ rxFold k1.chunk { s with cmdq := k2 :: cs } with cmdq := cs } : State) =
      rxFold k1.chunk { s with cmdq := cs } := by
    rw [rxFold_withInput s.rxq (k2 :: cs), rxFold_withInput s.rxq cs]
  have hcount : 2 + k.chunk.length = (1 + k1.chunk.length) + (1 + k2.chunk.length) := by
    rw [hchunk, List.length_append]
    omega
  rw [hcount, run_add _ hfirst, hsecond, hboth, hports, hchunk, rxFold, rxFold, rxFold, List.foldl_append]

/-! ## Leading bytes (R320) -/

/-- In Idle a byte that is no start marker changes ESC_PEND and LAST only. -/
theorem refRxStep_of_waiting {b : Byte} (hw : s.waiting = true) (hb : b ≠ 0x7E) :
    refRxStep b s P = { s with
      escPend := (refRxStep b s P).escPend, last := (refRxStep b s P).last } := by
  obtain ⟨hstart, -⟩ | ⟨-, e⟩ | ⟨-, e⟩ | ⟨hw', -⟩ := refRxStep_cases b s P
  · exact absurd hstart.1 hb
  · rw [e]
  · rw [e]
  · exact absurd (hw.symm.trans hw') (by decide)

theorem rxFold_of_waiting {g : List Byte} (hw : s.waiting = true) (hg : (0x7E : Byte) ∉ g) :
    ∃ e l, rxFold g s = { s with escPend := e, last := l } := by
  induction g generalizing s with
  | nil => exact ⟨s.escPend, s.last, rfl⟩
  | cons b g ih =>
    rw [List.mem_cons, not_or] at hg
    obtain ⟨hb, hg⟩ := hg
    have hstep := refRxStep_of_waiting (P := Params.default) hw (Ne.symm hb)
    obtain ⟨e, l, he⟩ := ih (s := refRxStep b s) (by rw [hstep]; exact hw) hg
    exact ⟨e, l, he.trans (by rw [hstep])⟩

/-- Settles O42: the run is the fold of RxStep, of which every byte is skipped. -/
theorem leadingGarbageIsSkipped : Obligations.LeadingGarbageIsSkipped := by
  unfold Obligations.LeadingGarbageIsSkipped
  intro s g more hphase hw hrxq hg
  have hrun := run_received s.cmdq g more hphase
  obtain ⟨e, l, he⟩ := rxFold_of_waiting hw hg
  have hs : s = s.withInput (g ++ more) s.cmdq := by rw [← hrxq]
  rw [← hs, he] at hrun
  exact ⟨_, hrun, rfl⟩

end Sys2Proof.Machine
end

section
/-! The events of one received byte (spec/60_exceptions.md R389). -/

namespace Sys2Proof.Machine

variable {s : State}

/-- The lists of R389, for a buffer of `cap` bytes. -/
def OneByteEvents (cap : Nat) (es : List Event) : Prop :=
  es = [] ∨ es = [.capacityExceeded cap] ∨
    ∃ f, FrameLevel f ∧ (es = [f] ∨ ∃ r e, r ≠ e ∧ es = [.checksumMismatch r e, f])

theorem frameLevel_refFrameEvent (c : ConfigRegs) (f : List Byte) (P : Parameters) :
    FrameLevel (refFrameEvent c f P) := by
  rw [refFrameEvent]
  split
  · trivial
  · split <;> trivial

/-- Only a completion appends an event of its own. -/
theorem State.interpret_events (v : Byte) (h : ¬s.AtChecksum) : (s.interpret v).events = s.events := by
  simp only [State.interpret, if_neg h]
  split_ifs <;> rfl

theorem refAppend_events (v : Byte) (s : State) (P : Parameters) :
    ∃ es, (refAppend v s P).events = s.events ++ es ∧ OneByteEvents s.cfg.rxCap.toNat es := by
  obtain ⟨-, e⟩ | ⟨-, ⟨h, e⟩ | ⟨-, e⟩⟩ := refAppend_cases v s P <;> rw [e]
  · exact ⟨_, rfl, .inr (.inl rfl)⟩
  · refine ⟨[], ?_, .inl rfl⟩
    rw [State.interpret_events v h, List.append_nil]
  · rw [State.complete_eq]
    refine ⟨_, List.append_assoc .., .inr (.inr
      ⟨_, frameLevel_refFrameEvent s.cfg ((s.rxbuf.write s.cnt v).readBytes 0 (s.cnt + 1)) P, ?_⟩)⟩
    by_cases hv : v = 0xFF - s.sum
    · rw [if_pos hv]
      exact .inl rfl
    · rw [if_neg hv]
      exact .inr ⟨v, 0xFF - s.sum, hv, rfl⟩

theorem refRxStep_events (b : Byte) (s : State) (P : Parameters) :
    ∃ es, (refRxStep b s P).events = s.events ++ es ∧ OneByteEvents s.cfg.rxCap.toNat es := by
  obtain ⟨-, e⟩ | ⟨-, e⟩ | ⟨-, e⟩ | ⟨-, e⟩ := refRxStep_cases b s P <;> rw [e]
  · exact refAppend_events 0x7E { s.startFrame with last := 0x7E } P
  · exact ⟨[], (List.append_nil _).symm, .inl rfl⟩
  · exact ⟨[], (List.append_nil _).symm, .inl rfl⟩
  · exact refAppend_events _ { s with last := s.unescaped b, escPend := false } P

/-- Settles O41: the step is RxStep, whose events are those of at most one append. -/
theorem eventsOfOneReceivedByte : Obligations.EventsOfOneReceivedByte := by
  unfold Obligations.EventsOfOneReceivedByte
  intro s t b bs hphase hrxq hstep
  rw [step_eq_stepFor, stepFor_eq_refRxStep _ hphase hrxq] at hstep
  cases hstep
  exact refRxStep_events b { s with rxq := bs } Params.default

end Sys2Proof.Machine
end

section
/-! A frame as the encoder sends it, received from Idle (spec/43_reassembler.md R303 to R315, R322, R323). -/

namespace Sys2Proof.Machine

variable {s : State}

/-! ## The wire bytes of one byte (R118, R190) -/

/-- A byte after the first as it is sent in the configured API mode. -/
def wireByte (c : ConfigRegs) (r : Byte) : List Byte :=
  if c.apiMode = 2 ∧ r ∈ reservedBytes then [0x7D, r ^^^ 0x20] else [r]

theorem wireBytes_eq_flatMap (c : ConfigRegs) (d : List Byte) :
    wireBytes c d = 0x7E :: (frameBytes d).tail.flatMap (wireByte c) := by
  by_cases hm : c.apiMode = 2
  · have hbyte : wireByte c = fun r => if r ∈ reservedBytes then [0x7D, r ^^^ 0x20] else [r] := by
      funext r
      simp only [wireByte, hm, true_and]
    rw [wireBytes, if_pos hm, hbyte]
    rfl
  · have hbyte : wireByte c = fun r => [r] := by
      funext r
      simp only [wireByte, hm, false_and, if_false]
    rw [wireBytes, if_neg hm, hbyte, List.flatMap_singleton']
    rfl

/-- No escape sequence ends in an escape marker (R162). -/
theorem xor_ne_escapeMarker_of_reserved {r : Byte} (h : r ∈ reservedBytes) : r ^^^ 0x20 ≠ 0x7D := by
  revert r; decide

/-- The masked byte of an escape sequence unmasks to the byte. -/
theorem xor_escapeXor_xor (r : Byte) : (r ^^^ 0x20) ^^^ 0x20 = r := by
  rw [BitVec.xor_assoc, BitVec.xor_self, BitVec.xor_zero]

/-- Inside a frame of a block so configured, no escape pending. -/
structure State.Scanning (s : State) (c : ConfigRegs) : Prop where
  waiting : s.waiting = false
  escPend : s.escPend = false
  cfg : s.cfg = c

variable {c : ConfigRegs}

/-- Inside a frame the wire bytes of a byte append that byte, in either API mode. -/
theorem State.Scanning.rxFold_wireByte (h : s.Scanning c) (r : Byte) :
    rxFold (wireByte c r) s = refAppend r { s with last := r } := by
  have hs : ({ s with last := r } : State) = { s with last := r, escPend := false } := by rw [← h.escPend]
  rw [hs]
  obtain rfl := h.cfg
  by_cases hw : s.cfg.apiMode = 2 ∧ r ∈ reservedBytes
  · obtain ⟨hm, hr⟩ := hw
    have hstart : ¬State.StartsAt { s with last := 0x7D, escPend := true } (r ^^^ 0x20) := fun hst => by
      have := hst.2
      simp [h.waiting] at this
    have hdata := refRxStep_of_data (P := Params.default) hstart fun he =>
      xor_ne_escapeMarker_of_reserved hr he.2
    rw [wireByte, if_pos ⟨hm, hr⟩, rxFold, List.foldl_cons, List.foldl_cons, List.foldl_nil,
      refRxStep_of_escape hm, hdata]
    simp only [State.unescaped, h.waiting, if_true, Config.escapeXor, xor_escapeXor_xor, Bool.false_eq_true,
      if_false]
  · have hplain : s.cfg.apiMode = 2 → r ≠ 0x7E ∧ r ≠ 0x7D := fun hm => by
      have hr : r ∉ reservedBytes := fun hr => hw ⟨hm, hr⟩
      exact ⟨fun e => hr (e ▸ by decide), fun e => hr (e ▸ by decide)⟩
    have hstart : ¬s.StartsAt r := fun hst => by
      obtain hst' | ⟨hm, -⟩ := hst.2
      · simp [h.waiting] at hst'
      · exact (hplain hm).1 hst.1
    have hdata := refRxStep_of_data (P := Params.default) hstart fun he => (hplain he.1).2 he.2
    rw [wireByte, if_neg hw, rxFold, List.foldl_cons, List.foldl_nil, hdata]
    simp only [State.unescaped, h.waiting, h.escPend, Bool.false_eq_true, if_false]

/-- The wire bytes of a sequence inside a frame, one byte at a time. -/
theorem State.Scanning.rxFold_cons (h : s.Scanning c) (r : Byte) (x : List Byte) :
    rxFold ((r :: x).flatMap (wireByte c)) s =
      rxFold (x.flatMap (wireByte c)) (refAppend r { s with last := r }) := by
  rw [List.flatMap_cons, rxFold, List.foldl_append]
  exact congrArg (rxFold _) (h.rxFold_wireByte r)

/-! ## The frame byte by byte -/

/-- Inside a frame, with room, a byte that completes no frame is written and interpreted. -/
theorem refAppend_of_room {v : Byte} (hroom : s.cnt < s.cfg.rxCap.toNat) (h : ¬(s.written v).AtChecksum) :
    refAppend v s = (s.written v).interpret v :=
  (if_pos hroom).trans (refInterpret_eq_interpret v h)

/-- The length field's bytes are the length. -/
theorem be16_ofNat (n : Nat) : be16 (BitVec.ofNat 8 (n / 256)) (BitVec.ofNat 8 n) = BitVec.ofNat 16 n := by
  apply BitVec.eq_of_toNat_eq
  rw [be16_toNat, BitVec.toNat_ofNat, BitVec.toNat_ofNat, BitVec.toNat_ofNat]
  omega

/-- The state after the three header bytes of a frame of `n` data bytes. -/
abbrev State.afterHeader (s : State) (n : Nat) : State :=
  { s with
    waiting := false, escPend := false, cnt := 3, len := BitVec.ofNat 16 n, sum := 0, chk := 0
    last := BitVec.ofNat 8 n
    rxbuf := s.rxbuf.writeBytes 0 [0x7E, BitVec.ofNat 8 (n / 256), BitVec.ofNat 8 n] }

/-- From Idle the header starts a frame and sets its length (R303, R309, R310). -/
theorem rxFold_header (hw : s.waiting = true) (hcap : 3 ≤ s.cfg.rxCap.toNat) (n : Nat)
    (x : List Byte) :
    rxFold (0x7E :: (BitVec.ofNat 8 (n / 256) :: BitVec.ofNat 8 n :: x).flatMap (wireByte s.cfg)) s =
      rxFold (x.flatMap (wireByte s.cfg)) (s.afterHeader n) := by
  have hstart := refRxStep_of_start (P := Params.default) (s := s) ⟨rfl, .inl hw⟩
  rw [refAppend_startFrame s _ (by omega)] at hstart
  rw [rxFold, List.foldl_cons, hstart]
  refine Eq.trans (State.Scanning.rxFold_cons ⟨rfl, rfl, rfl⟩ _ _) ?_
  rw [refAppend_of_room (by simp only; omega) (fun h => by have := h.2; simp only at this; omega),
    State.interpret_lengthHigh _ rfl, shiftLeft_eq_be16]
  refine Eq.trans (State.Scanning.rxFold_cons ⟨rfl, rfl, rfl⟩ _ _) ?_
  rw [refAppend_of_room (by simp only; omega) (fun h => by have := h.2; simp only at this; omega),
    State.interpret_lengthLow _ rfl, be16_zero_add, be16_ofNat]
  rfl

/-- The frame data is written and summed (R311). -/
theorem rxFold_data (h : s.Scanning c) (d x : List Byte) (hcnt : 3 ≤ s.cnt)
    (hlen : s.cnt + d.length < s.len.toNat + 4) (hcap : s.cnt + d.length ≤ s.cfg.rxCap.toNat) :
    rxFold ((d ++ x).flatMap (wireByte c)) s =
      rxFold (x.flatMap (wireByte c)) { s with
        last := d.getLastD s.last, rxbuf := s.rxbuf.writeBytes s.cnt d, cnt := s.cnt + d.length
        sum := s.sum + sumBytes d } := by
  induction d generalizing s with
  | nil => rw [show s.sum + sumBytes [] = s.sum from BitVec.add_zero _]; rfl
  | cons r d ih =>
    rw [List.length_cons] at hlen hcap
    rw [List.cons_append, h.rxFold_cons,
      refAppend_of_room (by simp only; omega) (fun hc => by have := hc.2; simp only at this; omega),
      State.interpret_data _ (by simp only; omega) (by simp only; omega)]
    refine Eq.trans (ih ⟨h.waiting, h.escPend, h.cfg⟩ ?_ ?_ ?_) ?_
    · simp only; omega
    · simp only; omega
    · simp only; omega
    · simp only [List.getLastD_cons, Memory.writeBytes, List.length_cons, sumBytes_cons, BitVec.add_assoc,
        Nat.add_assoc, Nat.add_comm 1]

/-! ## The buffer after the frame -/

theorem Memory.writeBytes_append (m : Memory) (a : Nat) (xs ys : List Byte) :
    m.writeBytes a (xs ++ ys) = (m.writeBytes a xs).writeBytes (a + xs.length) ys := by
  induction xs generalizing m a with
  | nil => rfl
  | cons b xs ih => rw [List.cons_append, Memory.writeBytes, ih, List.length_cons, Nat.add_right_comm]; rfl

/-- A sequence written is read back. -/
theorem Memory.readBytes_writeBytes {m : Memory} (hm : m.wf) (a : Nat) (bs : List Byte) :
    (m.writeBytes a bs).readBytes a bs.length = bs := by
  induction bs generalizing m a with
  | nil => rfl
  | cons b bs ih =>
    have hfirst : ((m.write a b).writeBytes (a + 1) bs).read a = b := by
      rw [Memory.read_writeBytes _ _ _ (Memory.wf_write a b hm), if_neg (by omega),
        Memory.read_write_self _ _ hm]
    rw [List.length_cons, Memory.readBytes, Memory.writeBytes, hfirst, ih (Memory.wf_write a b hm)]

theorem frameBytes_length (d : List Byte) : (frameBytes d).length = d.length + 4 := by
  rw [frameBytes, List.length_append, List.length_append, List.length_singleton]
  simp only [List.length_cons, List.length_nil]
  omega

/-- The state after a frame: Idle, its registers as the rules leave them, its one frame-level event (R313 to
R315). -/
abbrev State.afterFrame (s : State) (d : List Byte) : State :=
  { s with
    waiting := true, escPend := false, cnt := d.length + 4, len := 0, sum := sumBytes d, chk := checksum d
    last := checksum d, rxbuf := s.rxbuf.writeBytes 0 (frameBytes d)
    events := s.events ++ [refFrameEvent s.cfg (frameBytes d)] }

/-- The checksum byte completes the frame, and the checksum is right. -/
theorem refAppend_checksum {d : List Byte} (hwf : s.rxbuf.wf) (h1 : 1 ≤ d.length) (h2 : d.length ≤ 65535)
    (hcap : d.length + 4 ≤ s.cfg.rxCap.toNat) :
    refAppend (checksum d) { s with
        waiting := false, escPend := false, cnt := 3 + d.length, len := BitVec.ofNat 16 d.length
        sum := sumBytes d, chk := 0, last := checksum d
        rxbuf := s.rxbuf.writeBytes 0
          ([0x7E, BitVec.ofNat 8 (d.length / 256), BitVec.ofNat 8 d.length] ++ d) } =
      s.afterFrame d := by
  have hlen : (BitVec.ofNat 16 d.length).toNat = d.length := by
    rw [BitVec.toNat_ofNat]
    exact Nat.mod_eq_of_lt (by omega)
  have hbuf : (s.rxbuf.writeBytes 0
      ([0x7E, BitVec.ofNat 8 (d.length / 256), BitVec.ofNat 8 d.length] ++ d)).write (3 + d.length)
        (checksum d) = s.rxbuf.writeBytes 0 (frameBytes d) := by
    rw [frameBytes, Memory.writeBytes_append _ _ _ [checksum d], List.length_append, Nat.zero_add]
    rfl
  have hread : (s.rxbuf.writeBytes 0 (frameBytes d)).readBytes 0 (3 + d.length + 1) = frameBytes d := by
    have hframe := Memory.readBytes_writeBytes hwf 0 (frameBytes d)
    rwa [frameBytes_length, show d.length + 4 = 3 + d.length + 1 by omega] at hframe
  refine (if_pos (by simp only; omega)).trans ((refInterpret_of_checksum _ ?_).trans ?_)
  · exact ⟨by simp only [hlen]; omega, by simp only [hlen]; omega⟩
  · simp only [State.complete_eq, hbuf, hread]
    rw [if_pos (show checksum d = 0xFF - sumBytes d from rfl), List.append_nil,
      show 3 + d.length + 1 = d.length + 4 by omega]
    rfl

/-- A frame's wire bytes, received from Idle, are the frame's completion. -/
theorem rxFold_wireBytes {d : List Byte} (hw : s.waiting = true) (hwf : s.rxbuf.wf)
    (h1 : 1 ≤ d.length) (h2 : d.length ≤ 65535) (hcap : d.length + 4 ≤ s.cfg.rxCap.toNat) :
    rxFold (wireBytes s.cfg d) s = s.afterFrame d := by
  have hlen : (BitVec.ofNat 16 d.length).toNat = d.length := by
    rw [BitVec.toNat_ofNat]
    exact Nat.mod_eq_of_lt (by omega)
  have hscan : (s.afterHeader d.length).Scanning s.cfg := ⟨rfl, rfl, rfl⟩
  calc rxFold (wireBytes s.cfg d) s
      = rxFold ((d ++ [checksum d]).flatMap (wireByte s.cfg)) (s.afterHeader d.length) := by
        rw [wireBytes_eq_flatMap]
        exact rxFold_header hw (by omega) d.length (d ++ [checksum d])
    _ = rxFold ([checksum d].flatMap (wireByte s.cfg)) { s.afterHeader d.length with
          last := d.getLastD (BitVec.ofNat 8 d.length)
          rxbuf := (s.afterHeader d.length).rxbuf.writeBytes 3 d
          cnt := 3 + d.length, sum := 0 + sumBytes d } :=
        rxFold_data hscan d _ (Nat.le_refl 3) (by simp only [hlen]; omega) (by simp only; omega)
    _ = s.afterFrame d := by
        refine Eq.trans (State.Scanning.rxFold_cons ⟨rfl, rfl, rfl⟩ _ _) ?_
        rw [zero_add (sumBytes d)]
        have hbuf := Memory.writeBytes_append s.rxbuf 0
          [0x7E, BitVec.ofNat 8 (d.length / 256), BitVec.ofNat 8 d.length] d
        have hdone := refAppend_checksum hwf h1 h2 hcap
        rw [hbuf] at hdone
        exact hdone

/-- Settles O43: the run is the fold of RxStep over the wire bytes. -/
theorem sentFrameIsDelivered : Obligations.SentFrameIsDelivered := by
  unfold Obligations.SentFrameIsDelivered
  intro s d more hphase hw hwf _ h1 h2 hcap hrxq
  have hrun := run_received s.cmdq (wireBytes s.cfg d) more hphase
  have hs : s.withInput (wireBytes s.cfg d ++ more) s.cmdq = s := by rw [State.withInput, ← hrxq]
  rw [hs, rxFold_wireBytes hw hwf h1 h2 hcap] at hrun
  exact ⟨_, hrun, rfl, rfl, rfl, hphase, rfl, rfl, rfl, rfl, ⟨rfl, rfl, rfl⟩, rfl, rfl⟩

end Sys2Proof.Machine
end

section
/-! Escape byte by byte (spec/40_escaping.md R117, R118, R160 to R166). -/

namespace Sys2Proof.Machine

theorem reserved_iff (P : Parameters) (b : Byte) :
    reserved b P = true ↔ b = 0x7E ∨ b = 0x7D ∨ b = P.xon ∨ b = P.xoff := by
  simp only [reserved, Bool.or_eq_true, beq_iff_eq, or_assoc]

/-- The reserved set at the default flow-control bytes (log 2). -/
theorem reserved_iff_mem_reservedBytes (b : Byte) : reserved b = true ↔ b ∈ reservedBytes := by
  revert b; decide

/-- Each reserved byte adds one byte to the sequence. -/
theorem flatMap_escapeByte_length (s : List Byte) (P : Parameters) :
    (s.flatMap fun b => escapeByte b P).length = s.length + (s.filter fun b => reserved b P).length := by
  induction s with
  | nil => rfl
  | cons b s ih =>
    rw [List.flatMap_cons, List.length_append, ih, List.length_cons, List.filter_cons]
    by_cases h : reserved b P = true
    · rw [escapeByte_of_reserved h, if_pos h, List.length_cons, List.length_cons, List.length_cons,
        List.length_nil]
      omega
    · rw [escapeByte_of_not_reserved h, if_neg h, List.length_singleton]
      omega

/-- R166: each reserved byte after the first adds one byte. -/
theorem escape_length (s : List Byte) (P : Parameters) :
    (escape s P).length = s.length + (s.tail.filter fun b => reserved b P).length := by
  cases s with
  | nil => rfl
  | cons b s =>
    rw [escape, List.length_cons, flatMap_escapeByte_length, List.tail_cons, List.length_cons]
    omega

/-- No byte's escape sequence holds a start marker, two escape markers in a row, or an escape marker at its end
(log 2). -/
theorem escapeByte_markers (b : Byte) :
    (0x7E : Byte) ∉ escapeByte b ∧ (escapeByte b).getLast? ≠ some 0x7D ∧
      (escapeByte b).IsChain (fun x y => ¬(x = 0x7D ∧ y = 0x7D)) := by
  revert b; decide

/-- No two escape markers stand in a row (R162): the junctions are after bytes that are none. -/
theorem flatMap_escapeByte_isChain (s : List Byte) :
    (s.flatMap fun b => escapeByte b).IsChain (fun x y => ¬(x = 0x7D ∧ y = 0x7D)) := by
  induction s with
  | nil => exact List.isChain_nil
  | cons b s ih =>
    obtain ⟨-, hlast, hchain⟩ := escapeByte_markers b
    refine List.isChain_append.2 ⟨hchain, ih, fun x hx y _ h => hlast ?_⟩
    rw [← h.1]
    exact hx

/-- Settles O20: the length by counting the reserved bytes after the first, of which there are fewer than bytes. -/
theorem escapedLengthCountsReserved : Obligations.EscapedLengthCountsReserved := by
  unfold Obligations.EscapedLengthCountsReserved
  refine ⟨reserved_iff Params.default, reserved_iff, fun P => ⟨rfl, fun b s => rfl⟩,
    fun s => escape_length s _, fun s hs => ?_⟩
  have hcount := List.length_filter_le (fun b => reserved b) s.tail
  have hpos := List.length_pos_iff.2 hs
  rw [escape_length]
  rw [List.length_tail] at hcount
  omega

/-- Settles O21: what follows the first byte is made of escape sequences, of which none holds a start marker
or ends in an escape marker. -/
theorem escapeKeepsLeadingByteOnly : Obligations.EscapeKeepsLeadingByteOnly := by
  unfold Obligations.EscapeKeepsLeadingByteOnly
  refine fun b s => ⟨_, rfl, fun h => ?_, fun x y h => ?_⟩
  · obtain ⟨c, -, hc⟩ := List.mem_flatMap.1 h
    exact (escapeByte_markers c).1 hc
  · have hchain := flatMap_escapeByte_isChain s
    rw [h] at hchain
    exact (List.isChain_cons_cons.1 (List.isChain_append.1 hchain).2.1).1 ⟨rfl, rfl⟩

end Sys2Proof.Machine
end

section
/-! The end of a serializer (spec/41_encoder.md R181 to R194): the frame sent, or its size reported. -/

namespace Sys2Proof.Machine

variable {s : State} {d : List Byte}

/-! ## The frame (R110, R181, R190) -/

theorem frameOf_eq_frameBytes (d : List Byte) : frameOf d = frameBytes d := by
  rw [frameOf, ← be16_ofNat, be16bytes_be16]
  rfl

theorem escape_eq_escapedBytes (x : List Byte) : escape x = escapedBytes x := by
  have hbyte : (fun b => escapeByte b) =
      fun r : Byte => if r ∈ reservedBytes then [0x7D, r ^^^ 0x20] else [r] := by
    funext r
    rw [escapeByte]
    simp only [reserved_iff_mem_reservedBytes]
  cases x with
  | nil => rfl
  | cons b x => rw [escape, escapedBytes, hbyte]

theorem ConfigRegs.escapedMode_iff (c : ConfigRegs) : c.escapedMode = true ↔ c.apiMode = 2 := beq_iff_eq

theorem wireFrame_eq_wireBytes (c : ConfigRegs) (d : List Byte) : wireFrame c d = wireBytes c d := by
  simp only [wireFrame, wireBytes, c.escapedMode_iff, frameOf_eq_frameBytes, escape_eq_escapedBytes]

/-- The data from index 3, the checksum, then the header: TXBUF holds the frame from index 0 and its old bytes
elsewhere (R82, R181). -/
theorem read_builtFrame {m : Memory} (hm : m.wf) (d : List Byte) (a : Nat) :
    (((m.writeBytes 3 d).writeBytes (3 + d.length) [checksum d]).writeBytes 0
        (Config.startMarker :: be16bytes (BitVec.ofNat 16 d.length))).read a =
      if a < d.length + 4 then (frameBytes d).getD a 0 else m.read a := by
  have hdata := Memory.wf_writeBytes 3 d hm
  have hsum := Memory.wf_writeBytes (3 + d.length) [checksum d] hdata
  rw [Memory.read_writeBytes _ _ _ hsum, Memory.read_writeBytes _ _ _ hdata, Memory.read_writeBytes _ _ _ hm,
    ← be16_ofNat, be16bytes_be16, List.length_singleton, frameBytes, List.append_assoc]
  by_cases h3 : a < 3
  · rw [if_pos ⟨Nat.zero_le a, h3⟩, if_pos (by omega), List.getD_append _ _ _ _ h3]
    rfl
  · rw [if_neg (fun h => h3 h.2), List.getD_append_right _ _ _ _ (Nat.not_lt.1 h3)]
    by_cases hd : a - 3 < d.length
    · rw [if_neg (by omega), if_pos (by omega), if_pos (by omega)]
      exact (List.getD_append _ _ _ _ hd).symm
    · by_cases hc : a = 3 + d.length
      · subst hc
        rw [if_pos (by omega), if_pos (by omega)]
        refine Eq.trans ?_ (List.getD_append_right _ _ _ _ (Nat.not_lt.1 hd)).symm
        simp
      · rw [if_neg (by omega), if_neg (by omega), if_neg (by omega)]

/-! ## Transmit (R187 to R190, R194) -/

/-- The transmission of frame data, from the state with its id assigned, is sent or reported. -/
theorem State.transmit_sendsOrReports (s : State) (id : Option Byte) (d : List Byte) (hwf : s.txbuf.wf) :
    SendsOrReports s id d (.next (State.transmit { s with fid := fidAfter s id } d)) := by
  have hcases := State.transmit_cases { s with fid := fidAfter s id } d Params.default
  simp only [ConfigRegs.escapedMode_iff, frameOf_eq_frameBytes, escape_eq_escapedBytes] at hcases
  refine ⟨fun ⟨hlen, hcap, hescaped⟩ => ?_, fun hlong => ?_, fun hlen hcap hmode hlong => ?_⟩
  · obtain ⟨hlong, -⟩ | ⟨⟨-, -, hmode, hlong⟩, -⟩ | ⟨-, e⟩ := hcases
    · omega
    · exact absurd (hescaped hmode) (Nat.not_le.2 hlong)
    · refine ⟨_, congrArg Host.Outcome.next e, ?_, fun a => read_builtFrame hwf d a⟩
      rw [wireFrame_eq_wireBytes]
      rfl
  · obtain ⟨-, e⟩ | ⟨⟨h1, h2, -⟩, -⟩ | ⟨⟨h1, h2, -⟩, -⟩ := hcases
    · exact congrArg Host.Outcome.next e
    · omega
    · omega
  · obtain ⟨hlong', -⟩ | ⟨-, e⟩ | ⟨⟨-, -, hfits⟩, -⟩ := hcases
    · omega
    · exact congrArg Host.Outcome.next e
    · exact absurd (hfits hmode) (Nat.not_le.2 hlong)

/-- The id of a type that carries one, and the counter after it (R183). -/
theorem State.assignId_eq {ty : FrameType} (hty : ty ≠ .createSourceRoute) (s : State) (id : Option Byte) :
    s.assignId ty id = (assignedId s id, { s with fid := fidAfter s id }) := by
  obtain ⟨h, -⟩ | ⟨-, ⟨i, rfl, e⟩ | ⟨rfl, e⟩⟩ := s.assignId_cases ty id
  · exact absurd h hty
  · exact e
  · rw [e, nextFid_eq_ite_toNat]
    simp only [State.advanceFid, nextFid_eq_ite_toNat, assignedId, fidAfter]

/-! ## Serialize (R181, R193) -/

variable {ty : FrameType} {ser : Serializer} {m : Message} {tag : Byte}

/-- A message in its layout's ranges that omits no required field is transmitted. -/
theorem State.serialize_eq_sendFields (s : State) (hser : Params.default.encReg ty = some ser)
    (hadmits : ser.admits m = true) (hrequired : (ser.required.find? fun n => lacks m n) = none) :
    s.serialize Params.default ty m = .next (s.sendFields Params.default ty ser m) := by
  simp only [State.serialize, hser, hadmits, hrequired, if_true]

/-- A serializer of a type that carries an id sends the type, the id assigned and the fields. -/
theorem State.serialize_sendsOrReports (s : State) (htag : m.type = tag)
    (hser : Params.default.encReg ty = some ser) (hid : ser.hasId = true) (hty : ty ≠ .createSourceRoute)
    (hadmits : ser.admits m = true) (hrequired : (ser.required.find? fun n => lacks m n) = none)
    (hwf : s.txbuf.wf) :
    SendsOrReports s m.id (tag :: assignedId s m.id :: ser.fields Params.default.toValues m)
      (s.serialize Params.default ty m) := by
  rw [s.serialize_eq_sendFields hser hadmits hrequired, State.sendFields, if_pos hid, State.assignId_eq hty,
    ← htag]
  exact s.transmit_sendsOrReports m.id _ hwf

/-- The source route's serializer sends id 0 and leaves FID (R184). -/
theorem State.serialize_sourceRoute (s : State) (htag : m.type = tag)
    (hadmits : serializeCreateSourceRoute.admits m = true)
    (hrequired : (serializeCreateSourceRoute.required.find? fun n => lacks m n) = none) (hwf : s.txbuf.wf) :
    SendsOrReports s (some 0) (tag :: 0 :: serializeCreateSourceRoute.fields Params.default.toValues m)
      (s.serialize Params.default .createSourceRoute m) := by
  rw [s.serialize_eq_sendFields rfl hadmits hrequired, ← htag]
  exact s.transmit_sendsOrReports (some 0) _ hwf

/-- The first required field that is absent is reported before any id is allocated. -/
theorem State.serialize_missing (s : State) {n : FieldName} (htag : m.type = tag)
    (hser : Params.default.encReg ty = some ser) (hadmits : ser.admits m = true)
    (hrequired : (ser.required.find? fun n => lacks m n) = some n) :
    s.serialize Params.default ty m = .next (s.emit (.missingField tag n)) := by
  simp only [State.serialize, hser, hadmits, hrequired, if_true, htag]

/-- A message outside its layout's ranges does nothing (D35, log 17). -/
theorem State.serialize_not_admitted (s : State) (hser : Params.default.encReg ty = some ser)
    (hadmits : ser.admits m = false) : s.serialize Params.default ty m = .next s := by
  simp only [State.serialize, hser, hadmits, Bool.false_eq_true, if_false]

/-! ## Fields (R186, R193) -/

theorem fieldBytes_some {α : Type} (f : α → List Byte) (default : List Byte) (a : α) :
    fieldBytes f default (some a) = f a := rfl

/-- An absent optional field is written as its default. -/
theorem fieldBytes_optional {α : Type} (f : α → List Byte) (default : α) (v : Option α) :
    fieldBytes f (f default) v = f (v.getD default) := by
  cases v <;> rfl

/-- An absent optional byte is written as its default. -/
theorem u8Field_optional (v : Option Byte) (default : Byte) : u8Field v [default] = [v.getD default] :=
  fieldBytes_optional (fun b => [b]) default v

end Sys2Proof.Machine
end

section
/-! The eight ENC rows (spec/41_encoder.md R193, R200 to R208). -/

namespace Sys2Proof.Machine

/-- Settles O23: a command given, the row's fields are the mnemonic and the parameter. -/
theorem atCommandIsSent : Obligations.AtCommandIsSent := by
  unfold Obligations.AtCommandIsSent
  intro s id rest htype
  refine ⟨?_, fun c hwf => ?_⟩
  · exact s.serialize_missing (ty := .atCommand) (m := { rest with id, command := none }) htype rfl rfl rfl
  · have hsent := s.serialize_sendsOrReports (ty := .atCommand)
      (m := { rest with id, command := some c }) htype rfl rfl nofun rfl rfl hwf
    exact hsent

/-- Settles O24: the absent optional fields are written as their defaults. -/
theorem queuedAndRemoteAtCommandsAreSent : Obligations.QueuedAndRemoteAtCommandsAreSent := by
  unfold Obligations.QueuedAndRemoteAtCommandsAreSent
  intro s id c rest hwf
  refine ⟨fun htype => ?_, fun a n o htype => ?_⟩
  · have hsent := s.serialize_sendsOrReports (ty := .atCommandQueueParameterValue)
      (m := { rest with id, command := some c }) htype rfl rfl nofun rfl rfl hwf
    exact hsent
  · have hsent := s.serialize_sendsOrReports (ty := .remoteAtCommandRequest)
      (m := { rest with
        id, destination64 := some a, destination16 := n, remoteCommandOptions := o, command := some c })
      htype rfl rfl nofun rfl rfl hwf
    simp only [serializeRemoteAtCommandRequest, destination16Field, fieldBytes_optional, u8Field_optional] at hsent
    exact hsent

/-- Settles O25: the two forms of an id have the same bytes, and the rows write their fields in order. -/
theorem zigbeeRequestsAreSent : Obligations.ZigbeeRequestsAreSent := by
  unfold Obligations.ZigbeeRequestsAreSent
  refine ⟨fun h l => ⟨be16bytes_be16 h l, rfl, ?_⟩, fun s id a n r o rest hwf => ⟨fun htype => ?_, ?_⟩⟩
  · rw [be16_toNat, Nat.mul_comm]
  · have hsent := s.serialize_sendsOrReports (ty := .zigbeeTransmitRequest)
      (m := { rest with
        id, destination64 := some a, destination16 := n, broadcastRadius := r, options := o })
      htype rfl rfl nofun rfl rfl hwf
    simp only [serializeZigbeeTransmitRequest, destination16Field, transmitTail, fieldBytes_optional,
      u8Field_optional, List.append_assoc] at hsent
    simp only [List.append_assoc]
    exact hsent
  · intro se de cl pr htype
    have hsent := s.serialize_sendsOrReports (ty := .explicitAddressingZigbeeCommandFrame)
      (m := { rest with
        id, destination64 := some a, destination16 := n, sourceEndpoint := some se
        destinationEndpoint := some de, clusterId := some cl, profileId := some pr, broadcastRadius := r
        options := o })
      htype rfl rfl nofun rfl rfl hwf
    simp only [serializeExplicitAddressing, destination16Field, transmitTail, fieldBytes_some,
      fieldBytes_optional, u8Field_optional, List.append_assoc] at hsent
    simp only [List.append_assoc]
    exact hsent

/-- Settles O26: options absent are written as 0. -/
theorem txRequestsAreSent : Obligations.TxRequestsAreSent := by
  unfold Obligations.TxRequestsAreSent
  intro s id o rest hwf
  refine ⟨fun a htype => ?_, fun n htype => ?_⟩
  · have hsent := s.serialize_sendsOrReports (ty := .txRequest64)
      (m := { rest with id, destination64 := some a, options := o }) htype rfl rfl nofun rfl rfl hwf
    simp only [serializeTxRequest64, u8Field_optional] at hsent
    exact hsent
  · have hsent := s.serialize_sendsOrReports (ty := .txRequest16)
      (m := { rest with id, destination16 := some n, options := o }) htype rfl rfl nofun rfl rfl hwf
    simp only [serializeTxRequest16, u8Field_optional] at hsent
    exact hsent

/-- The source route's range: at most 255 addresses (R200). -/
theorem serializeCreateSourceRoute_admits (m : Message) :
    serializeCreateSourceRoute.admits m = decide ((m.addresses.getD []).length ≤ 255) := rfl

/-- The source route's fields, all three given (R208). -/
theorem serializeCreateSourceRoute_fields (V : Values) {m : Message} (id : Option Byte) (a : Addr64)
    (n : Addr16) {rs : List Half} (hrs : m.addresses = some rs) :
    serializeCreateSourceRoute.fields V { m with id, destination64 := some a, destination16 := some n } =
      a.bytes ++ n.bytes ++ [0x00, BitVec.ofNat 8 rs.length] ++ rs.flatMap be16bytes := by
  simp only [serializeCreateSourceRoute, hrs, fieldBytes_some, addressesField]
  rfl

/-- Settles O27: within its range the row sends id 0, past it the message is not admitted. -/
theorem sourceRouteIsSentWithIdZero : Obligations.SourceRouteIsSentWithIdZero := by
  unfold Obligations.SourceRouteIsSentWithIdZero
  intro s id rest rs hrs
  refine ⟨fun a n hwf htype hlen => ?_, fun a n hlen => ?_⟩
  · have hsent := s.serialize_sourceRoute
      (m := { rest with id, destination64 := some a, destination16 := some n }) htype
      (by rw [serializeCreateSourceRoute_admits, hrs]; exact decide_eq_true hlen)
      (by simp [serializeCreateSourceRoute, lacks, hrs]) hwf
    rw [serializeCreateSourceRoute_fields _ id a n hrs] at hsent
    exact hsent
  · refine s.serialize_not_admitted (ty := .createSourceRoute) rfl ?_
    rw [serializeCreateSourceRoute_admits, hrs]
    exact decide_eq_false (Nat.not_le.2 hlen)

/-! ## The rows as serializations -/

section

variable (id : Option Byte) (a : Option Addr64) (n : Option Addr16) (r o se de : Option Byte)
  (c : Option Ascii2) (cl pr : Option Id16) (rest : Message) (s : State)

theorem exec_encAtCommandQueueParameterValue :
    exec (.encAtCommandQueueParameterValue id c rest) s =
      s.serialize Params.default .atCommandQueueParameterValue { rest with id, command := c } := rfl

theorem exec_encRemoteAtCommandRequest :
    exec (.encRemoteAtCommandRequest id a n o c rest) s =
      s.serialize Params.default .remoteAtCommandRequest { rest with
        id, destination64 := a, destination16 := n, remoteCommandOptions := o, command := c } := rfl

theorem exec_encZigbeeTransmitRequest :
    exec (.encZigbeeTransmitRequest id a n r o rest) s =
      s.serialize Params.default .zigbeeTransmitRequest { rest with
        id, destination64 := a, destination16 := n, broadcastRadius := r, options := o } := rfl

theorem exec_encExplicitAddressing :
    exec (.encExplicitAddressingZigbeeCommandFrame id a n se de cl pr r o rest) s =
      s.serialize Params.default .explicitAddressingZigbeeCommandFrame { rest with
        id, destination64 := a, destination16 := n, sourceEndpoint := se, destinationEndpoint := de
        clusterId := cl, profileId := pr, broadcastRadius := r, options := o } := rfl

theorem exec_encTxRequest64 :
    exec (.encTxRequest64 id a o rest) s =
      s.serialize Params.default .txRequest64 { rest with id, destination64 := a, options := o } := rfl

theorem exec_encTxRequest16 :
    exec (.encTxRequest16 id n o rest) s =
      s.serialize Params.default .txRequest16 { rest with id, destination16 := n, options := o } := rfl

theorem exec_encCreateSourceRoute :
    exec (.encCreateSourceRoute id a n rest) s =
      s.serialize Params.default .createSourceRoute { rest with
        id, destination64 := a, destination16 := n } := rfl

end

/-- Settles O28, row by row: the search for an absent required field stops at the one the row names. -/
theorem missingRequiredFieldIsReported : Obligations.MissingRequiredFieldIsReported := by
  unfold Obligations.MissingRequiredFieldIsReported
  intro s id a n r o se de c cl pr rest reports
  have row : ∀ {i : Instr} {ty : FrameType} {ser : Serializer} {m : Message} {f : FieldName},
      exec i s = s.serialize Params.default ty m → m.type = rest.type → Params.default.encReg ty = some ser →
      ser.admits m = true → (ser.required.find? fun n => lacks m n) = some f → reports i f :=
    fun hrow htag hser hadmits hrequired => hrow.trans (s.serialize_missing htag hser hadmits hrequired)
  refine ⟨?_, ?_, ?_, ?_, ?_, ?_, fun e1 e2 i1 => ⟨?_, ?_, ?_⟩, ?_, ?_,
    fun hlen => ⟨?_, ?_, fun d hnone => ?_⟩⟩
  · exact row (exec_encAtCommandQueueParameterValue ..) rfl rfl rfl rfl
  · exact row (exec_encRemoteAtCommandRequest ..) rfl rfl rfl rfl
  · exact row (exec_encRemoteAtCommandRequest ..) rfl rfl rfl rfl
  · exact row (exec_encZigbeeTransmitRequest ..) rfl rfl rfl rfl
  · exact row (exec_encExplicitAddressing ..) rfl rfl rfl rfl
  · exact row (exec_encExplicitAddressing ..) rfl rfl rfl rfl
  · exact row (exec_encExplicitAddressing ..) rfl rfl rfl rfl
  · exact row (exec_encExplicitAddressing ..) rfl rfl rfl rfl
  · exact row (exec_encExplicitAddressing ..) rfl rfl rfl rfl
  · exact row (exec_encTxRequest64 ..) rfl rfl rfl rfl
  · exact row (exec_encTxRequest16 ..) rfl rfl rfl rfl
  · exact row (exec_encCreateSourceRoute ..) rfl rfl (decide_eq_true hlen) rfl
  · exact row (exec_encCreateSourceRoute ..) rfl rfl (decide_eq_true hlen) rfl
  · refine row (exec_encCreateSourceRoute ..) rfl rfl (decide_eq_true hlen) ?_
    simp [serializeCreateSourceRoute, lacks, hnone]

end Sys2Proof.Machine
end

section
/-! The decode rows of fixed layouts (spec/42_decoder.md R251, R253, R255 to R258, R277 to R288). -/

namespace Sys2Proof.Machine

/-! ## Each row runs its type's parser -/

section

variable (p : List Byte) (s : State)

theorem exec_decModemStatus : exec (.decModemStatus p) s = s.parseRow Params.default .modemStatus p := rfl

theorem exec_decTxStatus : exec (.decTxStatus p) s = s.parseRow Params.default .txStatus p := rfl

theorem exec_decZigbeeReceivePacket :
    exec (.decZigbeeReceivePacket p) s = s.parseRow Params.default .zigbeeReceivePacket p := rfl

theorem exec_decZigbeeExplicitRx :
    exec (.decZigbeeExplicitRx p) s = s.parseRow Params.default .zigbeeExplicitRx p := rfl

theorem exec_decRxPacket64 : exec (.decRxPacket64 p) s = s.parseRow Params.default .rxPacket64 p := rfl

theorem exec_decRxPacket64Io : exec (.decRxPacket64Io p) s = s.parseRow Params.default .rxPacket64Io p := rfl

theorem exec_decRxPacket16 : exec (.decRxPacket16 p) s = s.parseRow Params.default .rxPacket16 p := rfl

theorem exec_decAtCommand : exec (.decAtCommand p) s = s.parseRow Params.default .atCommand p := rfl

theorem exec_decAtCommandQueueParameterValue :
    exec (.decAtCommandQueueParameterValue p) s =
      s.parseRow Params.default .atCommandQueueParameterValue p := rfl

theorem exec_decRemoteAtCommandRequest :
    exec (.decRemoteAtCommandRequest p) s = s.parseRow Params.default .remoteAtCommandRequest p := rfl

theorem exec_decZigbeeTransmitRequest :
    exec (.decZigbeeTransmitRequest p) s = s.parseRow Params.default .zigbeeTransmitRequest p := rfl

theorem exec_decExplicitAddressing :
    exec (.decExplicitAddressingZigbeeCommandFrame p) s =
      s.parseRow Params.default .explicitAddressingZigbeeCommandFrame p := rfl

theorem exec_decTxRequest64 : exec (.decTxRequest64 p) s = s.parseRow Params.default .txRequest64 p := rfl

theorem exec_decTxRequest16 : exec (.decTxRequest16 p) s = s.parseRow Params.default .txRequest16 p := rfl

theorem exec_decAtCommandResponse :
    exec (.decAtCommandResponse p) s = s.parseRow Params.default .atCommandResponse p := rfl

theorem exec_decRemoteCommandResponse :
    exec (.decRemoteCommandResponse p) s = s.parseRow Params.default .remoteCommandResponse p := rfl

end

variable (V : Values) (cfg : ConfigRegs) (m : Message) (pos : Nat)

/-! ## Where a short payload of each layout is cut -/

theorem parseModemStatus_cuts : (parseModemStatus V cfg m).Cuts [1] :=
  readU8_takes.bind_cuts fun _ => .nil _

theorem parseTxStatus_cuts : (parseTxStatus V cfg m).Cuts [1, 1] :=
  readU8_takes.bind_cuts fun _ => readU8_takes.bind_cuts fun _ => .nil _

theorem parseZigbeeReceivePacket_cuts : (parseZigbeeReceivePacket V cfg m).Cuts [8, 2, 1] :=
  readA64_takes.bind_cuts fun _ => readA16_takes.bind_cuts fun _ => readU8_takes.bind_cuts fun _ => .nil _

theorem parseZigbeeExplicitRx_cuts : (parseZigbeeExplicitRx V cfg m).Cuts [8, 2, 1, 1, 2, 2, 1] :=
  readA64_takes.bind_cuts fun _ => readA16_takes.bind_cuts fun _ => readU8_takes.bind_cuts fun _ =>
    readU8_takes.bind_cuts fun _ => readA16_takes.bind_cuts fun _ => readA16_takes.bind_cuts fun _ =>
      readU8_takes.bind_cuts fun _ => .nil _

theorem parsePacket64_cuts : (parsePacket64 V cfg m).Cuts [8, 1, 1] :=
  readA64_takes.bind_cuts fun _ => readU8_takes.bind_cuts fun _ => readU8_takes.bind_cuts fun _ => .nil _

theorem parseRxPacket16_cuts : (parseRxPacket16 V cfg m).Cuts [2, 1, 1] :=
  readA16_takes.bind_cuts fun _ => readU8_takes.bind_cuts fun _ => readU8_takes.bind_cuts fun _ => .nil _

theorem parseAtRequest_cuts : (parseAtRequest V cfg m).Cuts [1, 2] :=
  readU8_takes.bind_cuts fun _ => readAscii2_takes.bind_cuts fun _ => .nil _

theorem parseRemoteAtCommandRequest_cuts : (parseRemoteAtCommandRequest V cfg m).Cuts [1, 8, 2, 1, 2] :=
  readU8_takes.bind_cuts fun _ => readA64_takes.bind_cuts fun _ => readA16_takes.bind_cuts fun _ =>
    readU8_takes.bind_cuts fun _ => readAscii2_takes.bind_cuts fun _ => .nil _

theorem parseZigbeeTransmitRequest_cuts : (parseZigbeeTransmitRequest V cfg m).Cuts [1, 8, 2, 1, 1] :=
  readU8_takes.bind_cuts fun _ => readA64_takes.bind_cuts fun _ => readA16_takes.bind_cuts fun _ =>
    readU8_takes.bind_cuts fun _ => readU8_takes.bind_cuts fun _ => .nil _

theorem parseExplicitAddressing_cuts : (parseExplicitAddressing V cfg m).Cuts [1, 8, 2, 1, 1, 2, 2, 1, 1] :=
  readU8_takes.bind_cuts fun _ => readA64_takes.bind_cuts fun _ => readA16_takes.bind_cuts fun _ =>
    readU8_takes.bind_cuts fun _ => readU8_takes.bind_cuts fun _ => readU16_takes.bind_cuts fun _ =>
      readU16_takes.bind_cuts fun _ => readU8_takes.bind_cuts fun _ => readU8_takes.bind_cuts fun _ => .nil _

theorem parseTxRequest64_cuts : (parseTxRequest64 V cfg m).Cuts [1, 8, 1] :=
  readU8_takes.bind_cuts fun _ => readA64_takes.bind_cuts fun _ => readU8_takes.bind_cuts fun _ => .nil _

theorem parseTxRequest16_cuts : (parseTxRequest16 V cfg m).Cuts [1, 2, 1] :=
  readU8_takes.bind_cuts fun _ => readA16_takes.bind_cuts fun _ => readU8_takes.bind_cuts fun _ => .nil _

theorem parseAtCommandResponse_cuts : (parseAtCommandResponse V cfg m).Cuts [1, 2, 1] :=
  readU8_takes.bind_cuts fun _ => readAscii2_takes.bind_cuts fun _ => readU8_takes.bind_cuts fun _ => .nil _

theorem parseRemoteCommandResponse_cuts : (parseRemoteCommandResponse V cfg m).Cuts [1, 8, 2, 2, 1] :=
  readU8_takes.bind_cuts fun _ => readA64_takes.bind_cuts fun _ => readA16_takes.bind_cuts fun _ =>
    readAscii2_takes.bind_cuts fun _ => readU8_takes.bind_cuts fun _ => .nil _

/-! ## What each layout is read as -/

theorem parseModemStatus_yields (v : Byte) (rest : List Byte) :
    (parseModemStatus V cfg m).Yields ⟨pos, v :: rest⟩ (.message { m with modemStatus := some v }) :=
  .bind (readU8_cons ..) <| .pure ..

theorem parseTxStatus_yields (i d : Byte) (rest : List Byte) :
    (parseTxStatus V cfg m).Yields ⟨pos, i :: d :: rest⟩
      (.message { m with id := some i, deliveryStatus := some d }) :=
  .bind (readU8_cons ..) <| .bind (readU8_cons ..) <| .pure ..

theorem parseZigbeeReceivePacket_yields (a : Addr64) (n : Addr16) (o : Byte) (data : List Byte) :
    (parseZigbeeReceivePacket V cfg m).Yields ⟨pos, a.bytes ++ (n.bytes ++ o :: data)⟩
      (.message { m with
        remote64 := some a, remote16 := some n, receiveOptions := some o, data := some data }) :=
  .bind (readA64_bytes ..) <| .bind (readA16_bytes ..) <| .bind (readU8_cons ..) <| .bind (readRest_eq ..) <|
    .pure ..

theorem parseZigbeeExplicitRx_yields (a : Addr64) (n cl pr : Addr16) (se de o : Byte) (data : List Byte) :
    (parseZigbeeExplicitRx V cfg m).Yields
      ⟨pos, a.bytes ++ (n.bytes ++ se :: de :: (cl.bytes ++ (pr.bytes ++ o :: data)))⟩
      (.message { m with
        remote64 := some a, remote16 := some n, sourceEndpoint := some se, destinationEndpoint := some de
        clusterId := some (.raw cl), profileId := some (.raw pr), receiveOptions := some o
        data := some data }) :=
  .bind (readA64_bytes ..) <| .bind (readA16_bytes ..) <| .bind (readU8_cons ..) <| .bind (readU8_cons ..) <|
    .bind (readA16_bytes ..) <| .bind (readA16_bytes ..) <| .bind (readU8_cons ..) <|
    .bind (readRest_eq ..) <| .pure ..

theorem parsePacket64_yields (a : Addr64) (r o : Byte) (data : List Byte) :
    (parsePacket64 V cfg m).Yields ⟨pos, a.bytes ++ r :: o :: data⟩
      (.message { m with
        remote64 := some a, rssi := some r, receiveOptions := some o, data := some data }) :=
  .bind (readA64_bytes ..) <| .bind (readU8_cons ..) <| .bind (readU8_cons ..) <| .bind (readRest_eq ..) <|
    .pure ..

theorem parseRxPacket16_yields (n : Addr16) (r o : Byte) (data : List Byte) :
    (parseRxPacket16 V cfg m).Yields ⟨pos, n.bytes ++ r :: o :: data⟩
      (.message { m with
        remote16 := some n, rssi := some r, receiveOptions := some o, data := some data }) :=
  .bind (readA16_bytes ..) <| .bind (readU8_cons ..) <| .bind (readU8_cons ..) <| .bind (readRest_eq ..) <|
    .pure ..

/-! ## The rows -/

/-- Settles O48: each row runs its parser, which reads its layout's fields in order or stops at the first that is
cut. -/
theorem receiveAndStatusFramesDecode : Obligations.ReceiveAndStatusFramesDecode := by
  unfold Obligations.ReceiveAndStatusFramesDecode
  refine ⟨fun s v rest => ?_, fun s i d rest => ?_,
    failsShort_of_cuts exec_decModemStatus rfl parseModemStatus_cuts,
    failsShort_of_cuts exec_decTxStatus rfl parseTxStatus_cuts, fun s a n o data => ?_,
    fun s a n cl pr se de o data => ?_, fun s a r o data => ⟨?_, ?_⟩, fun s n r o data => ?_,
    failsShort_of_cuts exec_decZigbeeReceivePacket rfl parseZigbeeReceivePacket_cuts,
    failsShort_of_cuts exec_decZigbeeExplicitRx rfl parseZigbeeExplicitRx_cuts,
    failsShort_of_cuts exec_decRxPacket64 rfl parsePacket64_cuts,
    failsShort_of_cuts exec_decRxPacket64Io rfl parsePacket64_cuts,
    failsShort_of_cuts exec_decRxPacket16 rfl parseRxPacket16_cuts⟩
  · exact delivers_of_yields exec_decModemStatus rfl (parseModemStatus_yields _ _ _ 0 v rest)
  · exact delivers_of_yields exec_decTxStatus rfl (parseTxStatus_yields _ _ _ 0 i d rest)
  · exact delivers_of_yields exec_decZigbeeReceivePacket rfl (parseZigbeeReceivePacket_yields _ _ _ 0 a n o data)
  · exact delivers_of_yields exec_decZigbeeExplicitRx rfl
      (parseZigbeeExplicitRx_yields _ _ _ 0 a n cl pr se de o data)
  · exact delivers_of_yields exec_decRxPacket64 rfl (parsePacket64_yields _ _ _ 0 a r o data)
  · exact delivers_of_yields exec_decRxPacket64Io rfl (parsePacket64_yields _ _ _ 0 a r o data)
  · exact delivers_of_yields exec_decRxPacket16 rfl (parseRxPacket16_yields _ _ _ 0 n r o data)

/-- Settles O54, as O48. -/
theorem requestFramesDecode : Obligations.RequestFramesDecode := by
  unfold Obligations.RequestFramesDecode
  refine ⟨fun s i c par => ⟨?_, ?_⟩, fun s i o a n c par => ?_, fun s i r o a n data => ?_,
    fun s i se de r o a n cl pr data => ?_, fun s i o a n data => ⟨?_, ?_⟩,
    failsShort_of_cuts exec_decAtCommand rfl parseAtRequest_cuts,
    failsShort_of_cuts exec_decAtCommandQueueParameterValue rfl parseAtRequest_cuts,
    failsShort_of_cuts exec_decRemoteAtCommandRequest rfl parseRemoteAtCommandRequest_cuts,
    failsShort_of_cuts exec_decZigbeeTransmitRequest rfl parseZigbeeTransmitRequest_cuts,
    failsShort_of_cuts exec_decExplicitAddressing rfl parseExplicitAddressing_cuts,
    failsShort_of_cuts exec_decTxRequest64 rfl parseTxRequest64_cuts,
    failsShort_of_cuts exec_decTxRequest16 rfl parseTxRequest16_cuts⟩
  · exact delivers_of_yields exec_decAtCommand rfl (parseAtRequest_yields _ _ _ 0 i c par)
  · exact delivers_of_yields exec_decAtCommandQueueParameterValue rfl (parseAtRequest_yields _ _ _ 0 i c par)
  · exact delivers_of_yields exec_decRemoteAtCommandRequest rfl
      (parseRemoteAtCommandRequest_yields _ _ _ 0 i o a n c par)
  · exact delivers_of_yields exec_decZigbeeTransmitRequest rfl
      (parseZigbeeTransmitRequest_yields _ _ _ 0 i r o a n data)
  · exact delivers_of_yields exec_decExplicitAddressing rfl
      (parseExplicitAddressing_yields _ _ _ 0 i se de r o a n cl pr data)
  · exact delivers_of_yields exec_decTxRequest64 rfl (parseTxRequest64_yields _ _ _ 0 i o a data)
  · exact delivers_of_yields exec_decTxRequest16 rfl (parseTxRequest16_yields _ _ _ 0 i o n data)

/-! ## The AT responses -/

/-- A row whose parser stops at its AT branch leaves the branch pending and changes nothing else. -/
theorem State.parseRow_atBranch {s : State} {P : Parameters} {ty : FrameType} {x : Parser} {p : List Byte}
    {remote : Bool} {m : Message} {c : Cursor} (hx : P.decReg ty = some x)
    (h : x P.toValues s.cfg { type := P.tag ty } ⟨0, p⟩ = .ok (.atBranch remote m, c)) :
    s.parseRow P ty p = .next { s with phase := .atBranch remote m c } := by
  simp only [State.parseRow, hx, State.parseWith, h]

theorem parseAtCommandResponse_eq (i st : Byte) (c : Ascii2) (rest : List Byte) :
    parseAtCommandResponse V cfg m ⟨pos, i :: (c.bytes ++ st :: rest)⟩ =
      .ok (.atBranch false { m with id := some i, command := some c, commandStatus := some st },
        ⟨pos + 4, rest⟩) := rfl

theorem parseRemoteCommandResponse_eq (i st : Byte) (a : Addr64) (n : Addr16) (c : Ascii2) (rest : List Byte) :
    parseRemoteCommandResponse V cfg m ⟨pos, i :: (a.bytes ++ n.bytes ++ c.bytes ++ st :: rest)⟩ =
      .ok (.atBranch true { m with
        id := some i, remote64 := some a, remote16 := some n, command := some c, commandStatus := some st },
        ⟨pos + 14, rest⟩) := rfl

/-- Settles O56: both parsers read their fixed fields and stop at the branch. -/
theorem atResponsesTakeTheirBranch : Obligations.AtResponsesTakeTheirBranch := by
  unfold Obligations.AtResponsesTakeTheirBranch
  refine ⟨fun s i st c rest => ?_, fun s i st a n c rest => ?_,
    failsShort_of_cuts exec_decAtCommandResponse rfl parseAtCommandResponse_cuts,
    failsShort_of_cuts exec_decRemoteCommandResponse rfl parseRemoteCommandResponse_cuts⟩
  · exact State.parseRow_atBranch (P := Params.default) (ty := .atCommandResponse) rfl
      (parseAtCommandResponse_eq _ _ _ 0 i st c rest)
  · exact State.parseRow_atBranch (P := Params.default) (ty := .remoteCommandResponse) rfl
      (parseRemoteCommandResponse_eq _ _ _ 0 i st a n c rest)

/-- Settles O59: inside RXBUF the raw report has a frame to report. -/
theorem unregisteredFrameIsReportedRaw : Obligations.UnregisteredFrameIsReportedRaw := by
  unfold Obligations.UnregisteredFrameIsReportedRaw
  intro s tag p hcnt
  rw [exec_decUnregistered, State.reportRaw_eq_emit (if_pos hcnt)]
  rfl

end Sys2Proof.Machine
end

section
/-! Rows that read a shared payload from a position on, and the node-identification payload
(spec/42_decoder.md R252, R254, R266 to R268). -/

namespace Sys2Proof.Machine

/-! ## Rows over a payload -/

/-- A row reads its payload with a parser from a position on: an answer is delivered in the row's message, a failure
fails the row, and nothing else changes. -/
def ReadsWith {α : Type} (row : List Byte → Instr) (s : State) (x : Parse α) (pos : Nat)
    (result : α → Message) : Prop :=
  ∀ q, (∀ a, x.Yields ⟨pos, q⟩ a → Delivers (row q) s (result a)) ∧
    ∀ e, x ⟨pos, q⟩ = .error e → Fails (row q) s e

variable {α : Type} {row : List Byte → Instr} {s : State} {x : Parse α} {pos : Nat} {result : α → Message}

/-- A branch row reads its payload from the response's cursor. -/
theorem readsWith_of_parseFrame
    (hrow : ∀ q, exec (row q) s = s.parseFrame (x >>= fun a => pure (result a)) ⟨pos, q⟩) :
    ReadsWith row s x pos result := by
  refine fun q => ⟨fun a ⟨c', h⟩ => ?_, fun e h f hf => ?_⟩
  · rw [Delivers, hrow]
    exact s.parseFrame_ok (Parse.runOn_ok (Parse.bind_ok h))
  · rw [hrow]
    exact State.parseFrame_error (Parse.runOn_error (Parse.bind_error h)) hf

/-- A frame row reads its payload after its fixed fields. -/
theorem readsWith_of_parseRow {ty : FrameType} {parser : Parser} {fixed : List Byte}
    (hrow : ∀ q, exec (row q) s = s.parseRow Params.default ty (fixed ++ q))
    (hx : Params.default.decReg ty = some parser)
    (hfixed : ∀ q, parser Params.default.toValues s.cfg { type := Params.default.tag ty } ⟨0, fixed ++ q⟩ =
      (x >>= fun a => pure (.message (result a))) ⟨pos, q⟩) :
    ReadsWith row s x pos result := by
  refine fun q => ⟨fun a ⟨c', h⟩ => ?_, fun e h f hf => ?_⟩
  · rw [Delivers, hrow]
    exact State.parseRow_message hx ⟨c', (hfixed q).trans (Parse.bind_ok h)⟩
  · rw [hrow]
    exact State.parseRow_error hx ((hfixed q).trans (Parse.bind_error h)) hf

/-! ## The node-identification payload -/

theorem readNodeExtension_cuts : readNodeExtension.Cuts [2, 1, 1, 2, 2] :=
  readA16_takes.bind_cuts fun _ => readU8_takes.bind_cuts fun _ => readU8_takes.bind_cuts fun _ =>
    readA16_takes.bind_cuts fun _ => readA16_takes.bind_cuts fun _ => .nil _

theorem readNodeId_cuts : readNodeId.Cuts [2, 8] :=
  readA16_takes.bind_cuts fun _ => readA64_takes.bind_cuts fun _ => .nil _

theorem readNodeExtension_eq (p : Nat) (e : NodeExtension) (rest : List Byte) :
    readNodeExtension ⟨p, extensionBytes e ++ rest⟩ = .ok (e, ⟨p + 8, rest⟩) := rfl

/-- Without bytes after the name the extension is absent (R268). -/
theorem readOptionalExtension_nil (p : Nat) : readOptionalExtension ⟨p, []⟩ = .ok (none, ⟨p, []⟩) := rfl

/-- With bytes after the name the extension is read. -/
theorem readOptionalExtension_of_ne_nil (p : Nat) {q : List Byte} (h : q ≠ []) :
    readOptionalExtension ⟨p, q⟩ = (readNodeExtension >>= fun e => pure (some e)) ⟨p, q⟩ := by
  have hlen : q.length ≠ 0 := fun h0 => h (List.eq_nil_of_length_eq_zero h0)
  rw [readOptionalExtension, Parse.bind_ok (remaining_eq p q), if_neg hlen]

/-- After the addresses and the name, the extension. -/
theorem readNodeId_prefix (p : Nat) (r16 : Addr16) (r64 : Addr64) {name : List Byte} (h : (0 : Byte) ∉ name)
    (q : List Byte) :
    readNodeId ⟨p, nodePrefix r16 r64 name ++ q⟩ =
      (readOptionalExtension >>= fun extension =>
        pure { remote16 := r16, remote64 := r64, nodeIdentifier := name, extension })
        ⟨p + 10 + name.length + 1, q⟩ := by
  have hsplit : nodePrefix r16 r64 name ++ q = r16.bytes ++ (r64.bytes ++ (name ++ 0 :: q)) := by
    simp only [nodePrefix, List.append_assoc, List.singleton_append]
  rw [hsplit, readNodeId, Parse.bind_ok (readA16_bytes ..), Parse.bind_ok (readA64_bytes ..),
    Parse.bind_ok (readCStr_append _ h q)]

/-- A name without a NUL fails where it starts. -/
theorem readNodeId_unterminated (p : Nat) (r16 : Addr16) (r64 : Addr64) {q : List Byte} (h : (0 : Byte) ∉ q) :
    readNodeId ⟨p, r16.bytes ++ r64.bytes ++ q⟩ = .error (.truncated (p + 10)) := by
  rw [List.append_assoc, readNodeId, Parse.bind_ok (readA16_bytes ..), Parse.bind_ok (readA64_bytes ..)]
  exact Parse.bind_error (readCStr_error _ h)

/-- All that a node-identification payload can come to, for a row that reads one. -/
theorem nodeIdDecodes_of_readsWith {result : NodeId → Message} (h : ReadsWith row s readNodeId pos result) :
    NodeIdDecodes row pos s result := by
  refine fun r64 r16 name rest => ⟨fun hname => ⟨?_, fun e => ?_, fun h1 h7 => ?_⟩,
    fun hlen => ?_, fun hnul => ?_⟩
  · refine (h _).1 _ ⟨⟨pos + 10 + name.length + 1, []⟩, ?_⟩
    rw [← List.append_nil (nodePrefix r16 r64 name), readNodeId_prefix pos r16 r64 hname,
      Parse.bind_ok (readOptionalExtension_nil _), Parse.pure_apply]
  · refine (h _).1 _ ⟨⟨pos + 10 + name.length + 1 + 8, rest⟩, ?_⟩
    have hext := readOptionalExtension_of_ne_nil (pos + 10 + name.length + 1)
      (q := extensionBytes e ++ rest) nofun
    rw [Parse.bind_ok (readNodeExtension_eq _ e rest), Parse.pure_apply] at hext
    rw [List.append_assoc, readNodeId_prefix pos r16 r64 hname, Parse.bind_ok hext, Parse.pure_apply]
  · refine (h _).2 _ ?_
    have hext := readOptionalExtension_of_ne_nil (pos + 10 + name.length + 1) (List.length_pos_iff.1 h1)
    rw [Parse.bind_error (readNodeExtension_cuts _ (Nat.lt_succ_of_le h7))] at hext
    rw [readNodeId_prefix pos r16 r64 hname, Parse.bind_error hext]
  · exact (h _).2 _ (readNodeId_cuts _ hlen)
  · exact (h _).2 _ (readNodeId_unterminated pos r16 r64 hnul)

/-! ## The rows -/

theorem parseNodeIdentification_cuts (V : Values) (cfg : ConfigRegs) (m : Message) :
    (parseNodeIdentification V cfg m).Cuts [8, 2, 1] :=
  readA64_takes.bind_cuts fun _ => readA16_takes.bind_cuts fun _ => readU8_takes.bind_cuts fun _ => .nil _

theorem exec_decNodeIdentification (p : List Byte) (s : State) :
    exec (.decNodeIdentification p) s = s.parseRow Params.default .nodeIdentification p := rfl

/-- AT_ND nests the payload, local and remote (R252, R254). -/
theorem atNd_readsWith (head : AtHead) (pos : Nat) (s : State) :
    ReadsWith (fun q => .atNd head ⟨pos, q⟩) s readNodeId pos
      fun d => { head.message with nodeIdentification := some d } :=
  readsWith_of_parseFrame fun _ => rfl

/-- AT_OTHER delivers the remaining bytes as they are. -/
theorem atOther_delivers (head : AtHead) (command : Option Ascii2) (status : Option Byte) (c : Cursor)
    (s : State) :
    Delivers (.atOther head command status c) s
      { head.message with command := command, commandStatus := status, commandData := some c.rest } :=
  have hrow : exec (.atOther head command status c) s =
      s.parseFrame (branchOther { head.message with command := command, commandStatus := status }) c := rfl
  hrow.trans (s.parseFrame_ok rfl)

/-- Settles O51: after its three fixed fields the row reads the payload. -/
theorem nodeIdentificationDecodes : Obligations.NodeIdentificationDecodes := by
  unfold Obligations.NodeIdentificationDecodes
  refine ⟨fun s a n o => nodeIdDecodes_of_readsWith ?_,
    failsShort_of_cuts exec_decNodeIdentification rfl parseNodeIdentification_cuts⟩
  exact readsWith_of_parseRow (fixed := a.bytes ++ n.bytes ++ [o])
    (fun q => exec_decNodeIdentification (a.bytes ++ n.bytes ++ [o] ++ q) s) rfl fun q => rfl

/-- Settles O57, by the two rows that a local response can select. -/
theorem localAtBranchesDecode : Obligations.LocalAtBranchesDecode := by
  unfold Obligations.LocalAtBranchesDecode
  exact fun s m pos command status data => ⟨nodeIdDecodes_of_readsWith (atNd_readsWith ⟨false, m⟩ pos s),
    atOther_delivers ⟨false, m⟩ command status ⟨pos, data⟩ s⟩

end Sys2Proof.Machine
end

section
/-! Consecutive words: the route record (spec/42_decoder.md R276) and the legacy I/O frame (R280, R281). -/

namespace Sys2Proof.Machine

/-! ## Runs of words -/

/-- A parser that takes exactly `n` words, or fails by truncation at the first that is cut. -/
def Parse.TakesWords {α : Type} (x : Parse α) (n : Nat) : Prop :=
  ∀ c : Cursor, (c.rest.length < 2 * n → x c = .error (.truncated (c.pos + 2 * (c.rest.length / 2)))) ∧
    (2 * n ≤ c.rest.length → ∃ a, x c = .ok (a, ⟨c.pos + 2 * n, c.rest.drop (2 * n)⟩))

theorem Parse.TakesWords.pure {α : Type} (a : α) : (Pure.pure a : Parse α).TakesWords 0 :=
  fun _ => ⟨nofun, fun _ => ⟨a, rfl⟩⟩

theorem readU16_takesWords : readU16.TakesWords 1 := fun c => by
  refine ⟨fun h => ?_, (readU16_takes c).2⟩
  rw [(readU16_takes c).1 h, Nat.div_eq_of_lt h]
  rfl

/-- Words taken, then words taken by what continues. -/
theorem Parse.TakesWords.bind {α β : Type} {x : Parse α} {f : α → Parse β} {n k : Nat}
    (hx : x.TakesWords n) (hf : ∀ a, (f a).TakesWords k) : Parse.TakesWords (x >>= f) (n + k) := fun c => by
  by_cases hn : c.rest.length < 2 * n
  · exact ⟨fun _ => Parse.bind_error ((hx c).1 hn), fun h => by omega⟩
  · obtain ⟨a, ha⟩ := (hx c).2 (Nat.le_of_not_lt hn)
    obtain ⟨hshort, hlong⟩ := hf a ⟨c.pos + 2 * n, c.rest.drop (2 * n)⟩
    rw [Parse.bind_ok ha]
    rw [List.length_drop] at hshort hlong
    refine ⟨fun h => (hshort (by omega)).trans ?_, fun h => ?_⟩
    · congr 2; dsimp only; omega
    · obtain ⟨b, hb⟩ := hlong (by omega)
      exact ⟨b, by rw [hb, List.drop_drop, Nat.mul_add, Nat.add_assoc]⟩

theorem readU16s_takesWords (n : Nat) : (readU16s n).TakesWords n := by
  induction n with
  | zero => exact .pure _
  | succ n ih =>
    have h : (readU16s (n + 1)).TakesWords (1 + n) :=
      readU16_takesWords.bind fun _ => ih.bind fun _ => .pure _
    exact Nat.add_comm 1 n ▸ h

theorem readLegacySample_takesWords (as : List Nat) : (readLegacySample as).TakesWords as.length := by
  induction as with
  | nil => exact .pure _
  | cons a as ih =>
    rw [List.length_cons, Nat.add_comm]
    exact readU16_takesWords.bind fun _ => ih.bind fun _ => .pure _

theorem readLegacySamples_takesWords (as : List Nat) (n : Nat) :
    (readLegacySamples as n).TakesWords (n * as.length) := by
  induction n with
  | zero => rw [Nat.zero_mul]; exact .pure _
  | succ n ih =>
    rw [Nat.succ_mul, Nat.add_comm (n * as.length)]
    exact (readLegacySample_takesWords as).bind fun _ => ih.bind fun _ => .pure _

/-! ## The route record -/

theorem exec_decRouteRecord (p : List Byte) (s : State) :
    exec (.decRouteRecord p) s = s.parseRow Params.default .routeRecord p := rfl

theorem parseRouteRecord_cuts (V : Values) (cfg : ConfigRegs) (m : Message) :
    (parseRouteRecord V cfg m).Cuts [8, 2, 1, 1] :=
  readA64_takes.bind_cuts fun _ => readA16_takes.bind_cuts fun _ => readU8_takes.bind_cuts fun _ =>
    readU8_takes.bind_cuts fun _ => .nil _

/-- After its fixed fields the row reads one address for each hop. -/
theorem decRouteRecord_readsWith (s : State) (a : Addr64) (n : Addr16) (o h : Byte) :
    ReadsWith (fun q => .decRouteRecord (a.bytes ++ n.bytes ++ [o, h] ++ q)) s (readU16s h.toNat) 12
      fun rs => { type := 0xA1, remote64 := some a, remote16 := some n, receiveOptions := some o
                  hopCount := some h, addresses := some rs } :=
  readsWith_of_parseRow (fixed := a.bytes ++ n.bytes ++ [o, h])
    (fun q => exec_decRouteRecord (a.bytes ++ n.bytes ++ [o, h] ++ q) s) rfl fun _ => rfl

/-- Settles O52: the words of the addresses are all read, or the first that is cut fails the row. -/
theorem routeRecordDecodes : Obligations.RouteRecordDecodes := by
  unfold Obligations.RouteRecordDecodes
  refine ⟨fun s a n o h rs rest hlen => ?_, fun s a n o h rest hlen => ?_,
    failsShort_of_cuts exec_decRouteRecord rfl parseRouteRecord_cuts⟩
  · rw [List.append_assoc _ (rs.flatMap be16bytes)]
    refine (decRouteRecord_readsWith s a n o h (rs.flatMap be16bytes ++ rest)).1 rs
      ⟨⟨12 + 2 * rs.length, rest⟩, ?_⟩
    rw [← hlen]
    exact readU16s_flatMap 12 rs rest
  · exact (decRouteRecord_readsWith s a n o h rest).2 _ (readU16s_error h.toNat ⟨12, rest⟩ hlen)

/-! ## The legacy I/O frame -/

theorem exec_decRxPacket16Io (p : List Byte) (s : State) :
    exec (.decRxPacket16Io p) s = s.parseRow Params.default .rxPacket16Io p := rfl

theorem readLegacyIo_cuts (m : Message) : (readLegacyIo m).Cuts [1, 2] :=
  readU8_takes.bind_cuts fun _ => readU16_takes.bind_cuts fun _ => .nil _

theorem parseRxPacket16Io_cuts (V : Values) (cfg : ConfigRegs) (m : Message) :
    (parseRxPacket16Io V cfg m).Cuts [2, 1, 1, 1, 2] :=
  readA16_takes.bind_cuts fun _ => readU8_takes.bind_cuts fun _ => readU8_takes.bind_cuts fun _ =>
    (readLegacyIo_cuts _).bind_left

/-- How many digital words stand in a legacy frame (R281). -/
def legacyWordCount (q : Byte) (mask : Half) : Nat := if mask &&& 0x1FF = 0 then 0 else q.toNat

/-- The words of a legacy frame after its channel mask: the digital words, then the samples (R281). -/
def readLegacyWords (q : Byte) (mask : Half) : Parse (List Half × List ChannelMap) := do
  let words ← readU16s (legacyWordCount q mask)
  let analog ← readLegacySamples (legacyAnalog mask) q.toNat
  pure (words, analog)

/-- The message of a legacy frame's fields and words (R280, R281). -/
def legacyMessage (n : Addr16) (r o q : Byte) (mask : Half) (w : List Half × List ChannelMap) : Message :=
  { type := 0x83, remote16 := some n, rssi := some r, receiveOptions := some o
    sampleQuantity := some q, channelMask := some mask
    channels := some ((legacyAnalog mask).map .adc ++ (legacyDigital mask).map .dio)
    digitalSamples := some (.words w.1), analogSamples := some (.perSample w.2) }

theorem Parse.pure_bind {α β : Type} (a : α) (f : α → Parse β) : (Pure.pure a >>= f) = f a := rfl

theorem Parse.bind_pure {α : Type} (x : Parse α) : (x >>= fun a => Pure.pure a) = x := by
  funext c
  cases h : x c with
  | error e => exact Parse.bind_error h
  | ok p => exact Parse.bind_ok h

/-- Sequencing depends on the first parser's outcome only. -/
theorem Parse.bind_congr {α β : Type} {x y : Parse α} {f : α → Parse β} {c c' : Cursor} (h : x c = y c') :
    (x >>= f) c = (y >>= f) c' := by
  cases hy : y c' with
  | error e => rw [Parse.bind_error hy, Parse.bind_error (h.trans hy)]
  | ok p => rw [Parse.bind_ok hy, Parse.bind_ok (h.trans hy)]

theorem Parse.bind_assoc {α β γ : Type} (x : Parse α) (f : α → Parse β) (g : β → Parse γ) :
    ((x >>= f) >>= g) = (x >>= fun a => f a >>= g) := by
  funext c
  cases h : x c with
  | error e => rw [Parse.bind_error h, Parse.bind_error (Parse.bind_error h)]
  | ok p => rw [Parse.bind_ok (f := fun a => f a >>= g) h, Parse.bind_congr (Parse.bind_ok h)]

/-- After its fixed fields the row reads its words. -/
theorem decRxPacket16Io_readsWith (s : State) (n : Addr16) (r o q : Byte) (mask : Half) :
    ReadsWith (fun p => .decRxPacket16Io (n.bytes ++ [r, o, q] ++ be16bytes mask ++ p)) s
      (readLegacyWords q mask) 7 (legacyMessage n r o q mask) := by
  refine readsWith_of_parseRow (fixed := n.bytes ++ [r, o, q] ++ be16bytes mask)
    (fun p => exec_decRxPacket16Io (n.bytes ++ [r, o, q] ++ be16bytes mask ++ p) s) rfl fun p => ?_
  have hhead : readLegacyIo { type := 0x83, remote16 := some n, rssi := some r, receiveOptions := some o }
      ⟨4, q :: (be16bytes mask ++ p)⟩ =
      (readLegacyWords q mask >>= fun w => pure (legacyMessage n r o q mask w)) ⟨7, p⟩ := by
    simp only [readLegacyIo, readLegacyWords, Parse.bind_assoc, Parse.pure_bind]
    rw [Parse.bind_ok (readU8_cons ..), Parse.bind_ok (readU16_bytes ..)]
    rfl
  refine (Parse.bind_congr (f := fun m => pure (ParseEnd.message m)) hhead).trans ?_
  rw [Parse.bind_assoc]
  rfl

theorem legacy_mask_eq_zero_iff (mask : Half) : mask &&& 0x1FF = 0 ↔ legacyDigital mask = [] := by
  have hlow : ∀ d < 16, (0x1FF : Half).getLsbD d = decide (d < 9) := by decide
  rw [legacyDigital, List.filter_eq_nil_iff]
  constructor
  · intro h d hd
    have hbit := congrArg (·.getLsbD d) h
    have hd9 : d < 9 := List.mem_range.1 hd
    simp only [BitVec.getLsbD_and, hlow d (by omega), hd9] at hbit
    simpa using hbit
  · intro h
    refine BitVec.eq_of_getLsbD_eq fun d hd => ?_
    rw [BitVec.getLsbD_and, hlow d hd]
    by_cases hd9 : d < 9
    · simp [h d (List.mem_range.2 hd9)]
    · simp [hd9]

theorem legacyWordCount_eq (q : Byte) (mask : Half) :
    legacyWordCount q mask = if legacyDigital mask = [] then 0 else q.toNat :=
  if_congr (legacy_mask_eq_zero_iff mask) rfl rfl

/-- The samples of a legacy frame from their words (R281). -/
def legacySamples (as : List Nat) (samples : List (List Half)) : List ChannelMap :=
  samples.map fun x => (as.zip x).map fun av => (Channel.adc av.1, av.2.toNat)

theorem readLegacySample_flatMap (as : List Nat) (x : List Half) (hlen : x.length = as.length) (pos : Nat)
    (rest : List Byte) :
    readLegacySample as ⟨pos, x.flatMap be16bytes ++ rest⟩ =
      .ok ((as.zip x).map fun av => (Channel.adc av.1, av.2.toNat), ⟨pos + 2 * x.length, rest⟩) := by
  induction as generalizing x pos with
  | nil => rw [List.eq_nil_of_length_eq_zero hlen]; rfl
  | cons a as ih =>
    obtain ⟨v, x, rfl⟩ := List.exists_cons_of_length_eq_add_one hlen
    rw [readLegacySample, List.flatMap_cons, List.append_assoc, Parse.bind_ok (readU16_bytes ..),
      Parse.bind_ok (ih x (Nat.succ.inj hlen) (pos + 2)), List.length_cons, Nat.mul_add, Nat.add_right_comm,
      Nat.add_assoc]
    rfl

theorem readLegacySamples_flatMap (as : List Nat) {samples : List (List Half)}
    (hlen : ∀ x ∈ samples, x.length = as.length) (pos : Nat) (rest : List Byte) :
    ∃ pos', readLegacySamples as samples.length
        ⟨pos, samples.flatMap (fun x => x.flatMap be16bytes) ++ rest⟩ =
      .ok (legacySamples as samples, ⟨pos', rest⟩) := by
  induction samples generalizing pos with
  | nil => exact ⟨pos, rfl⟩
  | cons x samples ih =>
    obtain ⟨hx, hsamples⟩ := List.forall_mem_cons.1 hlen
    obtain ⟨pos', hrest⟩ := ih hsamples (pos + 2 * x.length)
    refine ⟨pos', ?_⟩
    rw [List.length_cons, readLegacySamples, List.flatMap_cons, List.append_assoc,
      Parse.bind_ok (readLegacySample_flatMap as x hx ..), Parse.bind_ok hrest]
    rfl

theorem readLegacyWords_takesWords (q : Byte) (mask : Half) :
    (readLegacyWords q mask).TakesWords
      (legacyWordCount q mask + q.toNat * (legacyAnalog mask).length) :=
  (readU16s_takesWords _).bind fun _ => (readLegacySamples_takesWords _ _).bind fun _ => .pure _

theorem readLegacyWords_yields {q : Byte} {mask : Half} {ws : List Half} {samples : List (List Half)}
    (hws : ws.length = legacyWordCount q mask) (hcount : samples.length = q.toNat)
    (hlen : ∀ x ∈ samples, x.length = (legacyAnalog mask).length) (pos : Nat) (rest : List Byte) :
    (readLegacyWords q mask).Yields
      ⟨pos, ws.flatMap be16bytes ++ (samples.flatMap (fun x => x.flatMap be16bytes) ++ rest)⟩
      (ws, legacySamples (legacyAnalog mask) samples) := by
  obtain ⟨pos', hsamples⟩ := readLegacySamples_flatMap (legacyAnalog mask) hlen (pos + 2 * ws.length) rest
  rw [readLegacyWords, ← hws, ← hcount]
  exact .bind (readU16s_flatMap ..) <| .bind hsamples <| .pure ..

/-- Settles O53: the words after the mask are all read, or the first that is cut fails the row. -/
theorem legacyIoFrameDecodes : Obligations.LegacyIoFrameDecodes := by
  unfold Obligations.LegacyIoFrameDecodes
  refine ⟨fun s n r o q mask ws samples rest => ?_, fun s n r o q mask rest => ?_,
    failsShort_of_cuts exec_decRxPacket16Io rfl parseRxPacket16Io_cuts⟩
  · intro analog digital hws hcount hlen
    have hread := readLegacyWords_yields (hws.trans (legacyWordCount_eq q mask).symm) hcount hlen 7 rest
    rw [List.append_assoc _ _ rest, List.append_assoc _ (ws.flatMap be16bytes)]
    exact (decRxPacket16Io_readsWith s n r o q mask _).1 _ hread
  · intro analog digital hlen
    refine (decRxPacket16Io_readsWith s n r o q mask rest).2 _ ?_
    exact (readLegacyWords_takesWords q mask ⟨7, rest⟩).1 (by rwa [legacyWordCount_eq])

end Sys2Proof.Machine
end

section
/-! The sensor frame (spec/42_decoder.md R269 to R275). -/

namespace Sys2Proof.Machine

/-! ## The default humidity formulas as exact rationals -/

/-- The floor of a quotient of integers is the integer quotient. -/
theorem floor_eq_ediv {x : ℚ} {n d : ℤ} (hd : 0 < d) (hx : x = n / d) : ⌊x⌋ = n / d := by
  lift d to ℕ using hd.le
  rw [hx, ← Rat.floor_intCast_div_natCast n d, Int.cast_natCast]

/-- R274: the default relative humidity is the source's formula to the nearest hundredth. -/
theorem humidity_eq_floor {w2 : Half} (w3 : Half) (h : w2 ≠ 0) :
    Params.humidity (sensorMv w2) (sensorMv w3) =
      ⌊100 * (((20 * w3.toNat : ℚ) / (20 * w2.toNat) - 16 / 100) / (62 / 10000)) + 1 / 2⌋ := by
  have hpos : 0 < w2.toNat := Nat.pos_of_ne_zero fun h0 => h (BitVec.eq_of_toNat_eq h0)
  have hq : (w2.toNat : ℚ) ≠ 0 := Nat.cast_ne_zero.2 hpos.ne'
  have hmv : sensorMv w2 ≠ 0 := Nat.mul_ne_zero (by decide) hpos.ne'
  rw [Params.humidity, if_neg hmv]
  refine (floor_eq_ediv (by omega) ?_).symm
  simp only [sensorMv]
  push_cast
  field_simp
  ring

/-- The divisor of the true humidity is positive over the range of the temperature (R271, R275). -/
theorem trueHumidity_divisor_pos {t : Int} (h : t < 2048) : 0 < 1054600 - 135 * t := by omega

/-- R275: the default true humidity is the source's formula to the nearest hundredth. -/
theorem trueHumidity_eq_floor (rh : Int) {t : Int} (h : t < 2048) :
    Params.trueHumidity rh t =
      ⌊100 * ((rh : ℚ) / 100 / (10546 / 10000 - 216 / 100000 * (t / 16))) + 1 / 2⌋ := by
  have hpos := trueHumidity_divisor_pos h
  have hq : (1054600 - 135 * t : ℚ) ≠ 0 := by exact_mod_cast hpos.ne'
  have hdiv : (10546 / 10000 - 216 / 100000 * (t / 16) : ℚ) = (1054600 - 135 * t) / 1000000 := by ring
  refine (floor_eq_ediv (by omega) ?_).symm
  rw [hdiv]
  push_cast
  field_simp
  ring

/-! ## The temperature and the flags -/

/-- R271: the temperature is signed on an 11-bit magnitude. -/
theorem temp16_eq (t : Half) :
    temp16 t = if t.toNat < 2048 then (t.toNat : Int) else -((t.toNat % 2048 : Nat) : Int) := by
  split
  · exact temp16_of_lt ‹_›
  · exact temp16_of_le (Nat.le_of_not_lt ‹_›)

theorem temp16_lt (t : Half) : temp16 t < 2048 := by
  rw [temp16_eq]
  split <;> omega

theorem sensorTempFlag_iff (f : Byte) : f &&& Params.sensorTempFlag ≠ 0 ↔ f.getLsbD 1 = true := by
  revert f
  decide

theorem sensorRhFlag_iff (f : Byte) : f &&& Params.sensorRhFlag ≠ 0 ↔ f.getLsbD 0 = true := by
  revert f
  decide

/-- The default derived fields, present by their flags (R272, R273, R275). -/
theorem sensorMessage_default (m : Message) (f : Byte) (w0 w1 w2 w3 t : Half) :
    let rh := Params.humidity (sensorMv w2) (sensorMv w3)
    sensorMessage Params.default.toValues m f w0 w1 w2 w3 t =
      { m with
        sensors := some f, AD := some [sensorMv w0, sensorMv w1, sensorMv w2, sensorMv w3], T := some t
        temperature16 := if f.getLsbD 1 then some (temp16 t) else none
        relativeHumidity := if f.getLsbD 0 then some rh else none
        trueHumidity :=
          if f.getLsbD 1 && f.getLsbD 0 then some (Params.trueHumidity rh (temp16 t)) else none } := by
  have htemp : temperatureOf Params.default.toValues f t = if f.getLsbD 1 then some (temp16 t) else none :=
    if_congr (sensorTempFlag_iff f) rfl rfl
  have hrh : humidityOf Params.default.toValues f (sensorMv w2) (sensorMv w3) =
      if f.getLsbD 0 then some (Params.humidity (sensorMv w2) (sensorMv w3)) else none :=
    if_congr (sensorRhFlag_iff f) rfl rfl
  rw [sensorMessage, htemp, hrh]
  cases f.getLsbD 1 <;> cases f.getLsbD 0 <;> rfl

/-! ## The row -/

theorem exec_decXbeeSensorRead (p : List Byte) (s : State) :
    exec (.decXbeeSensorRead p) s = s.parseRow Params.default .xbeeSensorRead p := rfl

theorem parseXbeeSensorRead_cuts (V : Values) (cfg : ConfigRegs) (m : Message) :
    (parseXbeeSensorRead V cfg m).Cuts [8, 2, 1, 1, 2, 2, 2, 2, 2] :=
  readA64_takes.bind_cuts fun _ => readA16_takes.bind_cuts fun _ => readU8_takes.bind_cuts fun _ =>
    readU8_takes.bind_cuts fun _ => readU16_takes.bind_cuts fun _ => readU16_takes.bind_cuts fun _ =>
      readU16_takes.bind_cuts fun _ => readU16_takes.bind_cuts fun _ => readU16_takes.bind_cuts fun _ => .nil _

theorem parseXbeeSensorRead_yields (V : Values) (cfg : ConfigRegs) (m : Message) (pos : Nat) (a : Addr64)
    (n : Addr16) (o f : Byte) (w0 w1 w2 w3 t : Half) (rest : List Byte) :
    (parseXbeeSensorRead V cfg m).Yields
      ⟨pos, a.bytes ++ (n.bytes ++ o :: f :: (be16bytes w0 ++ (be16bytes w1 ++ (be16bytes w2 ++
        (be16bytes w3 ++ (be16bytes t ++ rest))))))⟩
      (.message (sensorMessage V
        { m with remote64 := some a, remote16 := some n, receiveOptions := some o } f w0 w1 w2 w3 t)) :=
  .bind (readA64_bytes ..) <| .bind (readA16_bytes ..) <| .bind (readU8_cons ..) <| .bind (readU8_cons ..) <|
    .bind (readU16_bytes ..) <| .bind (readU16_bytes ..) <| .bind (readU16_bytes ..) <|
    .bind (readU16_bytes ..) <| .bind (readU16_bytes ..) <| .pure ..

/-- Settles O50: the fields are read in order, and the derived ones are the formulas' values. -/
theorem sensorFrameDecodes : Obligations.SensorFrameDecodes := by
  unfold Obligations.SensorFrameDecodes
  refine ⟨fun s a n o f w0 w1 w2 w3 t rest => ?_,
    failsShort_of_cuts exec_decXbeeSensorRead rfl parseXbeeSensorRead_cuts⟩
  intro temperature hasT hasRh
  have ht : temp16 t = temperature := temp16_eq t
  refine ⟨Params.humidity (sensorMv w2) (sensorMv w3),
    Params.trueHumidity (Params.humidity (sensorMv w2) (sensorMv w3)) temperature,
    humidity_eq_floor w3, trueHumidity_eq_floor _ (ht ▸ temp16_lt t), ?_⟩
  have hread := parseXbeeSensorRead_yields Params.default.toValues s.cfg
    { type := Params.default.tag .xbeeSensorRead } 0 a n o f w0 w1 w2 w3 t rest
  rw [sensorMessage_default, ht] at hread
  simp only [List.append_assoc]
  exact delivers_of_yields exec_decXbeeSensorRead rfl hread

end Sys2Proof.Machine
end

section
/-! The I/O sample payload (spec/42_decoder.md R254, R259 to R265). -/

namespace Sys2Proof.Machine

variable (V : Values) (c : ConfigRegs)

/-! ## The digital word -/

/-- An empty mask assigns nothing. -/
theorem digitalMap_zero (value : Half) : digitalMap V 0 value = [] := by
  simp [digitalMap, ChannelMap.ofAssignments]

/-- The digital word is read if its mask is not 0, and leaves the map of its named bits (R260, R261). -/
theorem readDigital_ioDigital (maskD value : Half) (pos : Nat) (rest : List Byte) :
    readDigital V maskD ⟨pos, ioDigital maskD value ++ rest⟩ =
      .ok (digitalMap V maskD value, ⟨pos + (ioDigital maskD value).length, rest⟩) := by
  rw [readDigital, ioDigital]
  by_cases h : maskD = 0
  · subst h
    rw [if_pos rfl, if_pos rfl, digitalMap_zero]
    rfl
  · rw [if_neg h, if_neg h, Parse.bind_ok (readU16_bytes ..)]
    rfl

theorem readDigital_cut {maskD : Half} (h : maskD ≠ 0) (pos : Nat) {rest : List Byte}
    (hlen : rest.length < 2) : readDigital V maskD ⟨pos, rest⟩ = .error (.truncated pos) := by
  rw [readDigital, if_neg h]
  exact Parse.bind_error ((readU16_takes ⟨pos, rest⟩).1 hlen)

/-- Each name holds the value of the highest set bit of that name (R261). -/
theorem digitalMap_lookup (maskD value : Half) (name : Channel) :
    (digitalMap V maskD value).lookup name =
      (((List.range 16).filter fun b => maskD.getLsbD b && V.digitalName b == some name).getLast?).map
        fun b => (value.getLsbD b).toNat := by
  have hnames := ChannelMap.lookup_ofAssignments_named
    (fun b => if maskD.getLsbD b then V.digitalName b else none) (fun b => (value.getLsbD b).toNat)
    (List.range 16) name
  have hmap : digitalMap V maskD value = ChannelMap.ofAssignments ((List.range 16).filterMap fun b =>
      (if maskD.getLsbD b then V.digitalName b else none).map fun n => (n, (value.getLsbD b).toNat)) := by
    rw [digitalMap]
    congr 2
    funext b
    cases maskD.getLsbD b <;> rfl
  rw [hmap, hnames]
  congr 3
  funext b
  cases maskD.getLsbD b <;> rfl

/-! ## The analog words -/

/-- The assignments of set bits and their raw words, named and rescaled (R263, R264). -/
def analogAssignments (bits : List Nat) (raws : List Half) : List (Channel × Nat) :=
  (bits.zip raws).filterMap fun br => (V.analogName br.1).map fun name => (name, scaleAdc c br.2)

/-- Each name holds the value of the highest set bit of that name (R263). -/
theorem analogAssignments_lookup (bits : List Nat) (raws : List Half) (name : Channel) :
    (ChannelMap.ofAssignments (analogAssignments V c bits raws)).lookup name =
      (((bits.zip raws).filter fun br => V.analogName br.1 == some name).getLast?).map fun br =>
        scaleAdc c br.2 :=
  ChannelMap.lookup_ofAssignments_named (fun br : Nat × Half => V.analogName br.1) (fun br => scaleAdc c br.2)
    (bits.zip raws) name

/-- A set bit's word is read before its name is looked up (R263). -/
theorem readAnalogSamples_cons {mask : Byte} {bit : Nat} (h : mask.getLsbD bit = true) (bits : List Nat) :
    readAnalogSamples V c mask (bit :: bits) = readU16 >>= fun raw =>
      match V.analogName bit with
      | none => failWith (.unnamedChannel bit)
      | some name => readAnalogSamples V c mask bits >>= fun others =>
        pure ((name, scaleAdc c raw) :: others) :=
  if_pos h

/-- The bits that are not set are passed over. -/
theorem readAnalogSamples_filter (mask : Byte) (bits : List Nat) :
    readAnalogSamples V c mask (bits.filter fun b => mask.getLsbD b) = readAnalogSamples V c mask bits := by
  induction bits with
  | nil => rfl
  | cons bit bits ih =>
    by_cases h : mask.getLsbD bit = true
    · rw [List.filter_cons_of_pos h, readAnalogSamples_cons V c h, readAnalogSamples_cons V c h, ih]
    · rw [List.filter_cons_of_neg h, ih, readAnalogSamples, if_neg h]

theorem readAnalog_eq (mask : Byte) :
    readAnalog V c mask = readAnalogSamples V c mask (analogBits mask) >>= fun samples =>
      pure (ChannelMap.ofAssignments samples) := by
  rw [analogBits, readAnalogSamples_filter]
  rfl

theorem getLsbD_of_mem_analogBits {mask : Byte} {bit : Nat} (h : bit ∈ analogBits mask) :
    mask.getLsbD bit = true := (List.mem_filter.1 h).2

/-- Named set bits with their words are read, and the bits after them follow. -/
theorem readAnalogSamples_append {mask : Byte} {low : List Nat} (hset : ∀ b ∈ low, mask.getLsbD b = true)
    (hnamed : ∀ b ∈ low, V.analogName b ≠ none) {raws : List Half} (hlen : raws.length = low.length)
    (high : List Nat) (pos : Nat) (rest : List Byte) :
    readAnalogSamples V c mask (low ++ high) ⟨pos, raws.flatMap be16bytes ++ rest⟩ =
      (readAnalogSamples V c mask high >>= fun others => pure (analogAssignments V c low raws ++ others))
        ⟨pos + 2 * low.length, rest⟩ := by
  induction low generalizing raws pos with
  | nil =>
    rw [List.eq_nil_of_length_eq_zero hlen]
    exact (congrFun (Parse.bind_pure _) _).symm
  | cons bit low ih =>
    obtain ⟨raw, raws, rfl⟩ := List.exists_cons_of_length_eq_add_one hlen
    obtain ⟨hbit, hlow⟩ := List.forall_mem_cons.1 hset
    obtain ⟨hname, hnames⟩ := List.forall_mem_cons.1 hnamed
    obtain ⟨name, hname⟩ := Option.ne_none_iff_exists'.1 hname
    rw [List.cons_append, readAnalogSamples_cons V c hbit, List.flatMap_cons, List.append_assoc,
      Parse.bind_ok (readU16_bytes ..), hname]
    refine (Parse.bind_congr (ih hlow hnames (Nat.succ.inj hlen) (pos + 2))).trans ?_
    rw [Parse.bind_assoc, List.length_cons, Nat.mul_add, Nat.add_right_comm, Nat.add_assoc]
    simp only [analogAssignments, List.zip_cons_cons, List.filterMap_cons, hname]
    rfl

/-! ## The payload -/

theorem readIoSamples_cuts (m : Message) : (readIoSamples V c m).Cuts [1, 2, 1] :=
  readU8_takes.bind_cuts fun _ => readU16_takes.bind_cuts fun _ => readU8_takes.bind_cuts fun _ => .nil _

/-- The message of the fields and samples of a payload (R260). -/
def ioMessage (m : Message) (k : Byte) (digital analog : ChannelMap) : Message :=
  { m with
    numSamples := some k, digitalSamples := some (.named digital), analogSamples := some (.named analog) }

variable (m : Message) (k maskA : Byte) (maskD value : Half) (pos : Nat) (rest : List Byte)

/-- The three fixed fields, then the samples. -/
theorem readIoSamples_ioHead :
    readIoSamples V c m ⟨pos, ioHead k maskD maskA ++ rest⟩ =
      (readDigital V maskD >>= fun digital => readAnalog V c maskA >>= fun analog =>
        pure (ioMessage m k digital analog)) ⟨pos + 4, rest⟩ := by
  have hsplit : ioHead k maskD maskA ++ rest = k :: (be16bytes maskD ++ maskA :: rest) := rfl
  rw [hsplit, readIoSamples, Parse.bind_ok (readU8_cons ..), Parse.bind_ok (readU16_bytes ..),
    Parse.bind_ok (readU8_cons ..)]
  rfl

/-- After the digital word, the analog words of the set bits. -/
theorem readIoSamples_ioDigital :
    readIoSamples V c m ⟨pos, ioHead k maskD maskA ++ (ioDigital maskD value ++ rest)⟩ =
      (readAnalogSamples V c maskA (analogBits maskA) >>= fun samples =>
        pure (ioMessage m k (digitalMap V maskD value) (ChannelMap.ofAssignments samples)))
        ⟨pos + 4 + (ioDigital maskD value).length, rest⟩ := by
  rw [readIoSamples_ioHead, Parse.bind_ok (readDigital_ioDigital ..), readAnalog_eq, Parse.bind_assoc]
  rfl

section

variable {maskA} {low high : List Nat} {raws : List Half} (hnamed : ∀ b ∈ low, V.analogName b ≠ none)
  (hlen : raws.length = low.length)

include hnamed hlen

/-- After the words of the lowest set bits, the words of the others. -/
theorem readIoSamples_low (hbits : analogBits maskA = low ++ high) :
    readIoSamples V c m
        ⟨pos, ioHead k maskD maskA ++ (ioDigital maskD value ++ (raws.flatMap be16bytes ++ rest))⟩ =
      (readAnalogSamples V c maskA high >>= fun others =>
        pure (ioMessage m k (digitalMap V maskD value)
          (ChannelMap.ofAssignments (analogAssignments V c low raws ++ others))))
        ⟨pos + 4 + (ioDigital maskD value).length + 2 * low.length, rest⟩ := by
  have hset : ∀ b ∈ low, maskA.getLsbD b = true := fun b hb =>
    getLsbD_of_mem_analogBits (hbits ▸ List.mem_append_left high hb)
  rw [readIoSamples_ioDigital, hbits,
    Parse.bind_congr (readAnalogSamples_append V c hset hnamed hlen high _ rest), Parse.bind_assoc]
  rfl

/-- A payload whose set bits are all named is read (R260, R261, R263). -/
theorem readIoSamples_yields (hbits : analogBits maskA = low) :
    (readIoSamples V c m).Yields
      ⟨pos, ioHead k maskD maskA ++ (ioDigital maskD value ++ (raws.flatMap be16bytes ++ rest))⟩
      (ioMessage m k (digitalMap V maskD value) (ChannelMap.ofAssignments (analogAssignments V c low raws))) := by
  refine ⟨⟨pos + 4 + (ioDigital maskD value).length + 2 * low.length, rest⟩, ?_⟩
  rw [readIoSamples_low V c m k maskD value pos rest hnamed hlen (high := [])
    (hbits.trans (List.append_nil low).symm), readAnalogSamples, Parse.pure_bind, List.append_nil]
  rfl

/-- The lowest set bit without a name fails the read once its word is read (R263). -/
theorem readIoSamples_unnamed {bad : Nat} (hbits : analogBits maskA = low ++ bad :: high)
    (hbad : V.analogName bad = none) (raw : Half) :
    readIoSamples V c m ⟨pos, ioHead k maskD maskA ++ (ioDigital maskD value ++
      (raws.flatMap be16bytes ++ (be16bytes raw ++ rest)))⟩ = .error (.unnamedChannel bad) := by
  have hset : maskA.getLsbD bad = true := getLsbD_of_mem_analogBits (hbits ▸ by simp)
  rw [readIoSamples_low V c m k maskD value pos _ hnamed hlen hbits, readAnalogSamples_cons V c hset,
    Parse.bind_assoc, Parse.bind_ok (readU16_bytes ..), hbad]
  rfl

/-- An analog word that is cut fails the read where it starts (R233). -/
theorem readIoSamples_cut {bit : Nat} (hbits : analogBits maskA = low ++ bit :: high)
    (hrest : rest.length < 2) :
    readIoSamples V c m
        ⟨pos, ioHead k maskD maskA ++ (ioDigital maskD value ++ (raws.flatMap be16bytes ++ rest))⟩ =
      .error (.truncated (pos + 4 + (ioDigital maskD value).length + 2 * low.length)) := by
  have hset : maskA.getLsbD bit = true := getLsbD_of_mem_analogBits (hbits ▸ by simp)
  rw [readIoSamples_low V c m k maskD value pos _ hnamed hlen hbits, readAnalogSamples_cons V c hset]
  exact Parse.bind_error (Parse.bind_error ((readU16_takes ⟨_, rest⟩).1 hrest))

end

/-! ## The default names -/

theorem mem_namedBits_iff (b : Nat) : b ∈ namedBits ↔ Params.analogName b ≠ none := by
  simp only [namedBits, List.mem_cons, List.not_mem_nil, or_false, Params.analogName]
  split
  · simp; omega
  · split <;> simp <;> omega

theorem analogTable_lookup {b : Nat} (h : b < 8) : analogTable.lookup b = Params.analogName b := by
  revert b
  decide

theorem digitalTable_eq :
    digitalTable = (List.range 16).filterMap fun b => (Params.digitalName b).map fun n => (b, n) := by
  decide

theorem digitalTable_nodup : (digitalTable.map Prod.snd).Nodup := by decide

/-- With the default names the digital map is the named bits in their order (R261, R262). -/
theorem digitalMap_default :
    digitalMap Params.default.toValues maskD value = if maskD = 0 then [] else namedDigital maskD value := by
  by_cases h : maskD = 0
  · rw [if_pos h, h, digitalMap_zero]
  rw [if_neg h]
  have hassign : (List.range 16).filterMap (fun bit => if maskD.getLsbD bit then
      (Params.digitalName bit).map fun name => (name, (value.getLsbD bit).toNat) else none) =
      namedDigital maskD value := by
    rw [namedDigital, digitalTable_eq, List.filter_filterMap, List.map_filterMap]
    refine List.filterMap_congr fun bit _ => ?_
    cases Params.digitalName bit <;> cases hm : maskD.getLsbD bit <;> simp [hm, Bool.toNat, Bool.cond_eq_ite]
  refine (congrArg ChannelMap.ofAssignments hassign).trans (ChannelMap.ofAssignments_of_nodup ?_)
  rw [namedDigital, List.map_map]
  exact digitalTable_nodup.sublist (List.filter_sublist.map Prod.snd)

/-- With the default names the analog map is the named bits in their order (R262, R263). -/
theorem analogMap_default {raws : List Half} (hlen : raws.length = (analogBits maskA).length) :
    ChannelMap.ofAssignments (analogAssignments Params.default.toValues c (analogBits maskA) raws) =
      namedAnalog c (analogBits maskA) raws := by
  have hnames : (analogAssignments Params.default.toValues c (analogBits maskA) raws).map Prod.fst =
      (analogBits maskA).filterMap Params.analogName := by
    conv_rhs => rw [← List.map_fst_zip hlen.ge, List.filterMap_map]
    rw [analogAssignments, List.map_filterMap]
    refine List.filterMap_congr fun br _ => ?_
    rw [Option.map_map]
    exact congrFun Option.map_id_fun _
  have hnodup : ((List.range 8).filterMap Params.analogName).Nodup := by decide
  rw [ChannelMap.ofAssignments_of_nodup
    (hnames ▸ hnodup.sublist (List.filter_sublist.filterMap Params.analogName))]
  refine List.filterMap_congr fun br hbr => ?_
  have hlt : br.1 < 8 := List.mem_range.1 (List.mem_filter.1 (List.of_mem_zip hbr).1).1
  rw [analogTable_lookup hlt]
  rfl

variable {row : List Byte → Instr} {s : State} {pos m}

/-- All that an I/O sample payload can come to, for a row that reads one. -/
theorem ioPayloadDecodes_of_readsWith
    (h : ReadsWith row s (readIoSamples Params.default.toValues s.cfg m) pos id) :
    IoPayloadDecodes row pos s m := by
  refine fun k maskA maskD value raws rest => ⟨fun hnamed hlen => ?_,
    fun low bad high hbits hnamed hbad hlen => ?_, fun hlen => ?_, fun hmask hlen => ?_,
    fun low bit high hbits hnamed hlen hrest => ?_⟩
  · have hread := readIoSamples_yields Params.default.toValues s.cfg m k maskD value pos rest
      (fun b hb => (mem_namedBits_iff b).1 (hnamed b hb)) hlen rfl
    rw [digitalMap_default, analogMap_default s.cfg maskA hlen] at hread
    simp only [List.append_assoc]
    exact (h _).1 _ hread
  · obtain rfl | ⟨raws, raw, rfl⟩ := List.eq_nil_or_concat raws
    · simp at hlen
    rw [List.concat_eq_append, List.length_append, List.length_singleton] at hlen
    simp only [List.concat_eq_append, List.append_assoc, List.flatMap_append, List.flatMap_singleton]
    exact (h _).2 _ (readIoSamples_unnamed _ _ _ k maskD value pos rest
      (fun b hb => (mem_namedBits_iff b).1 (hnamed b hb)) (Nat.succ.inj hlen) hbits
      (not_not.1 fun hname => hbad ((mem_namedBits_iff bad).2 hname)) raw)
  · exact (h _).2 _ (readIoSamples_cuts _ _ _ ⟨pos, rest⟩ hlen)
  · refine (h _).2 _ ?_
    rw [readIoSamples_ioHead]
    exact Parse.bind_error (readDigital_cut _ hmask _ hlen)
  · simp only [List.append_assoc]
    exact (h _).2 _ (readIoSamples_cut _ _ _ k maskD value pos rest
      (fun b hb => (mem_namedBits_iff b).1 (hnamed b hb)) hlen hbits hrest)

/-! ## The rows -/

theorem exec_decZigbeeIoDataSampleRx (p : List Byte) (s : State) :
    exec (.decZigbeeIoDataSampleRx p) s = s.parseRow Params.default .zigbeeIoDataSampleRx p := rfl

theorem parseZigbeeIoDataSampleRx_cuts (V : Values) (cfg : ConfigRegs) (m : Message) :
    (parseZigbeeIoDataSampleRx V cfg m).Cuts [8, 2, 1, 1, 2, 1] :=
  readA64_takes.bind_cuts fun _ => readA16_takes.bind_cuts fun _ => readU8_takes.bind_cuts fun _ =>
    (readIoSamples_cuts V cfg _).bind_left

/-- Without a status the row reads the samples after its three fixed fields (R259). -/
theorem parseZigbeeIoDataSampleRx_eq (V : Values) (cfg : ConfigRegs) (m : Message) (a : Addr64) (n : Addr16)
    (o : Byte) (q : List Byte) :
    parseZigbeeIoDataSampleRx V cfg m ⟨0, a.bytes ++ n.bytes ++ [o] ++ q⟩ =
      (readIoSamples V cfg { m with remote64 := some a, remote16 := some n, receiveOptions := some o } >>=
        fun m => pure (.message m)) ⟨11, q⟩ := rfl

/-- With any tables in which every set analog bit is named, the row reports both maps (R259 to R263). -/
theorem parseRow_zigbeeIoDataSampleRx {P : Parameters}
    (hreg : P.decReg .zigbeeIoDataSampleRx = some parseZigbeeIoDataSampleRx) (s : State) (a : Addr64)
    (n : Addr16) (o k : Byte) {maskA : Byte} (maskD value : Half) {raws : List Half} (rest : List Byte)
    (hnamed : ∀ b ∈ analogBits maskA, P.analogName b ≠ none)
    (hlen : raws.length = (analogBits maskA).length) :
    s.parseRow P .zigbeeIoDataSampleRx (a.bytes ++ n.bytes ++ [o] ++
        (ioHead k maskD maskA ++ (ioDigital maskD value ++ (raws.flatMap be16bytes ++ rest)))) =
      .next (s.emit (.frameObject (ioMessage
        { type := P.tag .zigbeeIoDataSampleRx, remote64 := some a, remote16 := some n, receiveOptions := some o }
        k
        (digitalMap P.toValues maskD value)
        (ChannelMap.ofAssignments (analogAssignments P.toValues s.cfg (analogBits maskA) raws))))) := by
  obtain ⟨c', hread⟩ := readIoSamples_yields P.toValues s.cfg
    { type := P.tag .zigbeeIoDataSampleRx, remote64 := some a, remote16 := some n, receiveOptions := some o }
    k maskD value 11 rest hnamed hlen rfl
  exact State.parseRow_message hreg
    ⟨c', (parseZigbeeIoDataSampleRx_eq P.toValues s.cfg _ a n o _).trans (Parse.bind_ok hread)⟩

/-- Settles O49: the payload's outcomes at the default names, and the two maps at any names. -/
theorem ioSampleFrameDecodes : Obligations.IoSampleFrameDecodes := by
  unfold Obligations.IoSampleFrameDecodes
  refine ⟨fun s a n o => ioPayloadDecodes_of_readsWith ?_,
    failsShort_of_cuts exec_decZigbeeIoDataSampleRx rfl parseZigbeeIoDataSampleRx_cuts,
    fun digitalName analogName s a n o k maskA maskD value raws rest hnamed hlen => ?_⟩
  · exact readsWith_of_parseRow (fixed := a.bytes ++ n.bytes ++ [o])
      (fun q => exec_decZigbeeIoDataSampleRx (a.bytes ++ n.bytes ++ [o] ++ q) s) rfl
      (parseZigbeeIoDataSampleRx_eq _ _ _ a n o)
  · have hrow := parseRow_zigbeeIoDataSampleRx (P := { Params.default with digitalName, analogName }) rfl s a n o
      k maskD value rest hnamed hlen
    simp only [List.append_assoc]
    exact ⟨_, _, hrow, ChannelMap.nodup_ofAssignments _, ChannelMap.nodup_ofAssignments _, fun name =>
      ⟨digitalMap_lookup _ maskD value name, analogAssignments_lookup _ s.cfg _ raws name⟩⟩

/-- AT_IS_REMOTE reads the samples of a successful response (R254, R265). -/
theorem atIsRemote_readsWith (m : Message) (pos : Nat) (s : State) :
    ReadsWith (fun q => .atIsRemote ⟨true, m⟩ (some 0) ⟨pos, q⟩) s
      (readIoSamples Params.default.toValues s.cfg { m with commandStatus := some 0 }) pos id := by
  refine readsWith_of_parseFrame fun q => ?_
  show _ = s.parseFrame (readIoSamples _ _ _ >>= fun m => pure m) _
  rw [Parse.bind_pure]
  rfl

/-- A status other than success reads nothing (R265). -/
theorem readIoSamplePayload_failed (V : Values) (c : ConfigRegs) (m : Message) {st : Byte} (hst : st ≠ 0) :
    readIoSamplePayload V c m (some st) = pure (ioMessage m 0 [] []) :=
  if_neg hst

theorem atIsRemote_failed (m : Message) {st : Byte} (hst : st ≠ 0) (c : Cursor) (s : State) :
    Delivers (.atIsRemote ⟨true, m⟩ (some st) c) s
      (ioMessage { m with commandStatus := some st } 0 [] []) := by
  have hrow : exec (.atIsRemote ⟨true, m⟩ (some st) c) s =
      s.parseFrame (readIoSamplePayload Params.default.toValues s.cfg { m with commandStatus := some st }
        (some st)) c := rfl
  rw [Delivers, hrow, readIoSamplePayload_failed _ _ _ hst]
  exact s.parseFrame_ok rfl

/-- Settles O58, by the four rows that a remote response can select. -/
theorem remoteAtBranchesDecode : Obligations.RemoteAtBranchesDecode := by
  unfold Obligations.RemoteAtBranchesDecode
  exact fun s m pos command status data => ⟨nodeIdDecodes_of_readsWith (atNd_readsWith ⟨true, m⟩ pos s),
    fun _ hst => atIsRemote_failed m hst ⟨pos, data⟩ s,
    ioPayloadDecodes_of_readsWith (atIsRemote_readsWith m pos s),
    atOther_delivers ⟨true, m⟩ command status ⟨pos, data⟩ s⟩

end Sys2Proof.Machine
end
